-- ==== Sys2Proof/Word.lean ====
section
/-! DEFINITION. The one width of the hardware: every register address, data value and request operand is a byte (spec R9). -/

namespace Sys2Proof

/-- One byte, bits 7 (most significant) down to 0 (spec R9, R11). All arithmetic on it is unsigned and wraps mod 256. -/
abbrev Byte := BitVec 8

end Sys2Proof
end

