-- ==== Sys2Proof/Config.lean ====
section
/-! DEFINITION. The implementation parameters and the free values: the constants of spec R5 to R8, the open parameters
BIT_ORDER and POSITION_MAP (R8, log 11), and the inbound bytes of XFER (R21, log 8). -/

namespace Sys2Proof.Config

/-- `MAX_N`, the largest chain length and the number of frame-buffer slots (R6). -/
abbrev maxN : Nat := 8

/-- The chain length `N` of the instance that `Machine.State.reset` constructs.
DESIGN CHOICE (log 1): the spec makes `N` a parameter in 1..8 (R5); 2 is the chain of its worked example S6.
No definition but `State.reset` reads it: every rule is written over the state's own `len`. -/
def chainLength : Nat := 2

/-- `INTENSITY_DEFAULT`, the byte CONFIGURE sends when the caller passes a zero intensity (R7). -/
def intensityDefault : Byte := 0x01#8

/-- A frame-buffer slot's byte at reset. DESIGN CHOICE (log 2): R25 leaves `FB` unspecified. -/
def resetSlotByte : Byte := 0x00#8

/-- FREE VALUE (log 8): the inbound byte XFER returns for the `n`-th transfer, "any of 256 values, under no law" (R21).
It has no body, so nothing can be proved of it. -/
opaque inboundByte : Nat → Byte

/-- The two orders in which XFER may shift the eight bits of a byte (R8, R33, 92_eei_decisions.md D16). -/
inductive BitOrder where
  | msbFirst
  | lsbFirst
deriving DecidableEq, Repr, Inhabited

/-- OPEN PARAMETER `BIT_ORDER` (R8, R33; log 11). No rule of the FRAMER depends on it. -/
opaque bitOrder : BitOrder

/-- A placement of the chain: which physical chip, counted by distance from the controller, latches the pair at each
wire position; a bijection of 0..N-1 (R8, R32, 92_eei_decisions.md D17). -/
abbrev PositionMap (n : Nat) := Equiv.Perm (Fin n)

/-- OPEN PARAMETER `POSITION_MAP` (R8, R32; log 11). No rule depends on it. -/
opaque positionMap (n : Nat) : PositionMap n

end Sys2Proof.Config
end

