-- ==== Sys2Proof/Syntax.lean ====
section
/-! DEFINITION. The syntax of the hardware: device registers, commands, wire pairs, and ONE inductive `Instr` with a
constructor for each of the 25 rows of spec/opcode_table.json (eleven host requests, fourteen device pairs). -/

namespace Sys2Proof

/-- The fourteen device registers, "a fixed enumerated set of register addresses" (R29, R63). -/
inductive DevReg where
  | noop
  | digit0
  | digit1
  | digit2
  | digit3
  | digit4
  | digit5
  | digit6
  | digit7
  | decodeMode
  | intensity
  | scanLimit
  | shutdown
  | displayTest
deriving DecidableEq, Repr

/-- A raw command: one of the fourteen registers and any data byte (R68; 00_scope.md glossary "Command"). -/
structure Command where
  reg : DevReg
  data : Byte
deriving DecidableEq, Repr

/-- A pair as it travels on the wire and stands in a frame: the register byte and the data byte (R62). -/
structure Pair where
  reg : Byte
  data : Byte
deriving DecidableEq, Repr

/-- Who decodes a word: the FRAMER (host requests, R70) or the device at position `p` of the chain (pairs, R63).
A pair is addressed "by the position of its pair and by nothing else" (R64), so the position comes from where the pair
stands in the frame, not from its bits. -/
inductive Space where
  | host
  | device (p : Nat)
deriving DecidableEq, Repr

/-- The instructions: the eleven requests of R70 with their operands, then the fourteen pairs of R63, each with the
position `p` of the device that executes it and its data byte `d`. -/
inductive Instr where
  | configure (dc iv : Byte)
  | setScanLimit (n : Byte)
  | setIntensity (v : Byte)
  | setDecodeMode (n : Byte)
  | enterShutdown
  | exitShutdown
  | enterDisplayTest
  | exitDisplayTest
  | writeOne (idx : Byte) (reg : DevReg) (data : Byte)
  | writeAll (cmds : List Command)
  | writeSame (reg : DevReg) (data : Byte)
  | noop (p : Nat) (d : Byte)
  | digit0 (p : Nat) (d : Byte)
  | digit1 (p : Nat) (d : Byte)
  | digit2 (p : Nat) (d : Byte)
  | digit3 (p : Nat) (d : Byte)
  | digit4 (p : Nat) (d : Byte)
  | digit5 (p : Nat) (d : Byte)
  | digit6 (p : Nat) (d : Byte)
  | digit7 (p : Nat) (d : Byte)
  | decodeMode (p : Nat) (d : Byte)
  | intensity (p : Nat) (d : Byte)
  | scanLimit (p : Nat) (d : Byte)
  | shutdown (p : Nat) (d : Byte)
  | displayTest (p : Nat) (d : Byte)
deriving DecidableEq, Repr

/-- The space an instruction belongs to. -/
def Instr.space : Instr → Space
  | .configure _ _ => .host
  | .setScanLimit _ => .host
  | .setIntensity _ => .host
  | .setDecodeMode _ => .host
  | .enterShutdown => .host
  | .exitShutdown => .host
  | .enterDisplayTest => .host
  | .exitDisplayTest => .host
  | .writeOne _ _ _ => .host
  | .writeAll _ => .host
  | .writeSame _ _ => .host
  | .noop p _ => .device p
  | .digit0 p _ => .device p
  | .digit1 p _ => .device p
  | .digit2 p _ => .device p
  | .digit3 p _ => .device p
  | .digit4 p _ => .device p
  | .digit5 p _ => .device p
  | .digit6 p _ => .device p
  | .digit7 p _ => .device p
  | .decodeMode p _ => .device p
  | .intensity p _ => .device p
  | .scanLimit p _ => .device p
  | .shutdown p _ => .device p
  | .displayTest p _ => .device p

end Sys2Proof
end

