-- ==== Sys2Proof/WellFormed.lean ====
section
/-! DEFINITION. Which instructions have an encoding. Register operands are well formed by their type (R68); two checks
are left: the count of WRITE_ALL fits its byte (R71), and a pair's position is one a chain can have (R6, R28). -/

namespace Sys2Proof

/-- A position some chain has: 0 to `MAX_N - 1` (R5, R6, R28). -/
def positionOk (p : Nat) : Bool := decide (p < Config.maxN)

/-- WRITE_ALL's `cnt` is one byte, 0..255 (R70, R71). -/
def countOk (cmds : List Command) : Bool := decide (cmds.length < 256)

/-- The well-formed instructions. -/
def Instr.wellFormed : Instr → Bool
  | .configure _ _ => true
  | .setScanLimit _ => true
  | .setIntensity _ => true
  | .setDecodeMode _ => true
  | .enterShutdown => true
  | .exitShutdown => true
  | .enterDisplayTest => true
  | .exitDisplayTest => true
  | .writeOne _ _ _ => true
  | .writeAll cmds => countOk cmds
  | .writeSame _ _ => true
  | .noop p _ => positionOk p
  | .digit0 p _ => positionOk p
  | .digit1 p _ => positionOk p
  | .digit2 p _ => positionOk p
  | .digit3 p _ => positionOk p
  | .digit4 p _ => positionOk p
  | .digit5 p _ => positionOk p
  | .digit6 p _ => positionOk p
  | .digit7 p _ => positionOk p
  | .decodeMode p _ => positionOk p
  | .intensity p _ => positionOk p
  | .scanLimit p _ => positionOk p
  | .shutdown p _ => positionOk p
  | .displayTest p _ => positionOk p

end Sys2Proof
end

