-- ==== Sys2Proof/Decode.lean ====
section
/-! DEFINITION. The decoder, total on any bytes and rejecting by name (R62, R63, R68 to R73), the encoder after it, and
the decoder for the words of spec/opcode_table.json. -/

namespace Sys2Proof

/-- The address byte of each device register (R29, R63). -/
def DevReg.address : DevReg → Byte
  | .noop => 0x00#8
  | .digit0 => 0x01#8
  | .digit1 => 0x02#8
  | .digit2 => 0x03#8
  | .digit3 => 0x04#8
  | .digit4 => 0x05#8
  | .digit5 => 0x06#8
  | .digit6 => 0x07#8
  | .digit7 => 0x08#8
  | .decodeMode => 0x09#8
  | .intensity => 0x0A#8
  | .scanLimit => 0x0B#8
  | .shutdown => 0x0C#8
  | .displayTest => 0x0F#8

/-- The register at an address; none for the unassigned addresses 0x0D, 0x0E and 0x10 to 0xFF (R30, R63). All eight
bits are compared. -/
def DevReg.ofAddress (b : Byte) : Option DevReg :=
  match b.toNat with
  | 0x00 => some .noop
  | 0x01 => some .digit0
  | 0x02 => some .digit1
  | 0x03 => some .digit2
  | 0x04 => some .digit3
  | 0x05 => some .digit4
  | 0x06 => some .digit5
  | 0x07 => some .digit6
  | 0x08 => some .digit7
  | 0x09 => some .decodeMode
  | 0x0A => some .intensity
  | 0x0B => some .scanLimit
  | 0x0C => some .shutdown
  | 0x0F => some .displayTest
  | _ => none

/-- Why a byte string is no instruction. For a request every reason is answered with `IllegalRequest` (R73); the
finer names are the model's (log 19). -/
inductive Malformed where
  /-- the empty byte string (R73: "yields `reject(4)` for the empty list too") -/
  | empty
  /-- `req[0]` is 0x00 or 0x0C to 0xFF -/
  | reservedOpcode
  /-- `L` differs from the expected length, or a pair is not two bytes -/
  | wrongLength
  /-- a `reg` byte is none of the fourteen addresses (R68) -/
  | reservedRegister
  /-- a device position that no chain has (R6) -/
  | noSuchPosition
deriving DecidableEq, Repr

/-- The length `L` a request must have, from its opcode and, for WRITE_ALL, its `cnt` byte (R70, R72). None for a
reserved opcode and for a WRITE_ALL without `cnt`. -/
def requestLength (op : Byte) (operands : List Byte) : Option Nat :=
  match op.toNat with
  | 0x01 => some 3
  | 0x02 => some 2
  | 0x03 => some 2
  | 0x04 => some 2
  | 0x05 => some 1
  | 0x06 => some 1
  | 0x07 => some 1
  | 0x08 => some 1
  | 0x09 => some 4
  | 0x0A => operands.head?.map (fun cnt => 2 + 2 * cnt.toNat)
  | 0x0B => some 3
  | _ => none

/-- The operand pairs of WRITE_ALL, `reg_i` then `data_i` (R70 format RQV, R68). -/
def decodeCommands : List Byte → Except Malformed (List Command)
  | [] => .ok []
  | [_] => .error .wrongLength
  | r :: d :: rest =>
    match DevReg.ofAddress r with
    | none => .error .reservedRegister
    | some reg =>
      match decodeCommands rest with
      | .error e => .error e
      | .ok cmds => .ok (⟨reg, d⟩ :: cmds)

/-- The body of WRITE_ALL: `cnt`, then exactly `cnt` pairs (R70, R72, R91). -/
def decodeWriteAll : List Byte → Except Malformed Instr
  | [] => .error .wrongLength
  | cnt :: rest =>
    if rest.length = 2 * cnt.toNat then
      match decodeCommands rest with
      | .error e => .error e
      | .ok cmds => .ok (.writeAll cmds)
    else .error .wrongLength

/-- The body of WRITE_ONE: `idx`, `reg`, `data` (R70, R90). -/
def decodeWriteOne : List Byte → Except Malformed Instr
  | [idx, r, d] =>
    match DevReg.ofAddress r with
    | none => .error .reservedRegister
    | some reg => .ok (.writeOne idx reg d)
  | _ => .error .wrongLength

/-- The body of WRITE_SAME: `reg`, `data` (R70, R92). -/
def decodeWriteSame : List Byte → Except Malformed Instr
  | [r, d] =>
    match DevReg.ofAddress r with
    | none => .error .reservedRegister
    | some reg => .ok (.writeSame reg d)
  | _ => .error .wrongLength

/-- The body of CONFIGURE: `dc`, `iv` (R70, R79). -/
def decodeConfigure : List Byte → Except Malformed Instr
  | [dc, iv] => .ok (.configure dc iv)
  | _ => .error .wrongLength

/-- The body of a one-operand request, format RQ1 (R70). -/
def decodeRQ1 (mk : Byte → Instr) : List Byte → Except Malformed Instr
  | [a] => .ok (mk a)
  | _ => .error .wrongLength

/-- The body of a request without operands, format RQ0 (R70). -/
def decodeRQ0 (i : Instr) : List Byte → Except Malformed Instr
  | [] => .ok i
  | _ => .error .wrongLength

/-- The request opcode map (R70, R73). -/
def decodeRequest : List Byte → Except Malformed Instr
  | [] => .error .empty
  | op :: operands =>
    match op.toNat with
    | 0x01 => decodeConfigure operands
    | 0x02 => decodeRQ1 .setScanLimit operands
    | 0x03 => decodeRQ1 .setIntensity operands
    | 0x04 => decodeRQ1 .setDecodeMode operands
    | 0x05 => decodeRQ0 .enterShutdown operands
    | 0x06 => decodeRQ0 .exitShutdown operands
    | 0x07 => decodeRQ0 .enterDisplayTest operands
    | 0x08 => decodeRQ0 .exitDisplayTest operands
    | 0x09 => decodeWriteOne operands
    | 0x0A => decodeWriteAll operands
    | 0x0B => decodeWriteSame operands
    | _ => .error .reservedOpcode

/-- The instruction by which device `p` executes a pair for register `reg` (R63). -/
def pairInstr (p : Nat) (d : Byte) : DevReg → Instr
  | .noop => .noop p d
  | .digit0 => .digit0 p d
  | .digit1 => .digit1 p d
  | .digit2 => .digit2 p d
  | .digit3 => .digit3 p d
  | .digit4 => .digit4 p d
  | .digit5 => .digit5 p d
  | .digit6 => .digit6 p d
  | .digit7 => .digit7 p d
  | .decodeMode => .decodeMode p d
  | .intensity => .intensity p d
  | .scanLimit => .scanLimit p d
  | .shutdown => .shutdown p d
  | .displayTest => .displayTest p d

/-- The pair format PAIR at position `p`: register byte, then data byte (R62, R63). -/
def decodePair (p : Nat) : List Byte → Except Malformed Instr
  | [r, d] =>
    if p < Config.maxN then
      match DevReg.ofAddress r with
      | none => .error .reservedRegister
      | some reg => .ok (pairInstr p d reg)
    else .error .noSuchPosition
  | _ => .error .wrongLength

/-- The decoder. -/
def decode : Space → List Byte → Except Malformed Instr
  | .host, bytes => decodeRequest bytes
  | .device p, bytes => decodePair p bytes

/-- The bytes of WRITE_ALL's pairs, `reg_i` then `data_i`, in index order (R70). -/
def encodeCommands : List Command → List Byte
  | [] => []
  | c :: cmds => c.reg.address :: c.data :: encodeCommands cmds

/-- The encoder: the bytes of an instruction, first byte first (R62, R63, R70). -/
def encode : Instr → List Byte
  | .configure dc iv => [0x01#8, dc, iv]
  | .setScanLimit n => [0x02#8, n]
  | .setIntensity v => [0x03#8, v]
  | .setDecodeMode n => [0x04#8, n]
  | .enterShutdown => [0x05#8]
  | .exitShutdown => [0x06#8]
  | .enterDisplayTest => [0x07#8]
  | .exitDisplayTest => [0x08#8]
  | .writeOne idx reg data => [0x09#8, idx, reg.address, data]
  | .writeAll cmds => 0x0A#8 :: BitVec.ofNat 8 cmds.length :: encodeCommands cmds
  | .writeSame reg data => [0x0B#8, reg.address, data]
  | .noop _ d => [0x00#8, d]
  | .digit0 _ d => [0x01#8, d]
  | .digit1 _ d => [0x02#8, d]
  | .digit2 _ d => [0x03#8, d]
  | .digit3 _ d => [0x04#8, d]
  | .digit4 _ d => [0x05#8, d]
  | .digit5 _ d => [0x06#8, d]
  | .digit6 _ d => [0x07#8, d]
  | .digit7 _ d => [0x08#8, d]
  | .decodeMode _ d => [0x09#8, d]
  | .intensity _ d => [0x0A#8, d]
  | .scanLimit _ d => [0x0B#8, d]
  | .shutdown _ d => [0x0C#8, d]
  | .displayTest _ d => [0x0F#8, d]

/-- The bytes of a `device_pair` row's 16-bit word `{reg, data}`: `reg` is bits 15:8 and is transmitted first (R62). -/
def tablePair (w : Nat) : List Byte := [BitVec.ofNat 8 (w / 256), BitVec.ofNat 8 w]

/-- The whole bytes that a `host_request` row's number gives, the first byte lowest. -/
def tableBytes : Nat → Nat → List Byte
  | 0, _ => []
  | n + 1, w => BitVec.ofNat 8 w :: tableBytes n (w / 256)

/-- The request of a `host_request` row: the bytes the table numbers, then operand bytes of zero up to the length the
opcode requires (R72). -/
def tableRequest (nbits w : Nat) : List Byte :=
  match tableBytes ((nbits + 7) / 8) w with
  | [] => []
  | op :: operands =>
    match requestLength op (operands ++ [0#8]) with
    | none => op :: operands
    | some L => op :: operands ++ List.replicate (L - (operands.length + 1)) 0#8

/-- The instruction the decoder reads from a row of spec/opcode_table.json. The table's only 16-bit rows are the
`device_pair` rows, read here by the device at position 0; every other width is a `host_request` row, whose table bits
are the opcode byte (log 12). -/
def decodeTableWord (nbits w : Nat) : Option Instr :=
  if nbits = 16 then (decode (.device 0) (tablePair w)).toOption
  else (decode .host (tableRequest nbits w)).toOption

end Sys2Proof
end

