-- ==== Sys2Proof/Machine/State.lean ====
section
/-! DEFINITION. The state of the machine as plain data: the FRAMER's registers and sequencer (R13 to R19), the chain it
drives (R28, R39), the trace (R10), and the model's own fields for the other agents (R4); the reasons a step can stop;
and the state after reset (R25, R26, R113). -/

namespace Sys2Proof.Machine

/-- The two levels of the strobe line; "there is no third" (R15). `low` is 0, `high` is 1. -/
inductive Level where
  | low
  | high
deriving DecidableEq, Repr

/-- The four causes of rejection (R94). A rejection is an ordinary result, not a fault (R105). -/
inductive Rejection where
  | invalidConfiguration
  | invalidDeviceIndex
  | frameLengthMismatch
  | illegalRequest
deriving DecidableEq, Repr

/-- The contents of `STATUS` and of a response (R17, R74). Codes 5 to 7 are never produced, so they have no
constructor. -/
inductive Status where
  | ok
  | rejected (c : Rejection)
deriving DecidableEq, Repr

/-- The three-bit status code (R74, R94). -/
def Status.code : Status → BitVec 3
  | .ok => 0
  | .rejected .invalidConfiguration => 1
  | .rejected .invalidDeviceIndex => 2
  | .rejected .frameLengthMismatch => 3
  | .rejected .illegalRequest => 4

/-- The events of the trace (R10, R12, R65): `sl` strobe driven low, `b` a byte handed to XFER, `sh` strobe driven high,
`resp` a response. -/
inductive Event where
  | sl
  | b (data : Byte)
  | sh
  | resp (s : Status)
deriving DecidableEq, Repr

/-- A frame: its pairs by position, 0 first on the wire (R11, R31). It has exactly `N` pairs (R34), which the invariant
says of every frame in `plan`. -/
abbrev Frame := List Pair

/-- The device register space (R28): the byte at address `(p, r)` stands under the key `p * 256 + r` (log 21). Sorted by
key; an unlisted address has no value (R26, log 3). -/
abbrev Memory := List Host.Cell

/-- The moves of the agents around the FRAMER: the HOST's (R4, R121; log 5), and XFER's one choice (R107; log 7). -/
inductive HostMove where
  /-- wait until `BUSY = 0`, then present the request (R119) -/
  | request (req : List Byte)
  /-- present the request at once, whatever `BUSY` is: the contract violation of R106 when it is 1 -/
  | requestNow (req : List Byte)
  /-- construct the instance anew with this chain length (R113 to R115) -/
  | reset (length : Nat)
  /-- let the FRAMER take its own next step -/
  | letRun
  /-- XFER: from here on its transfers do not complete (`true`, R107), or complete again (`false`); then the FRAMER takes its
  own next step -/
  | bus (stalls : Bool)
deriving DecidableEq, Repr

/-- The whole state. -/
structure State where
  /-- `LEN`, the chain length `N` (R14) -/
  len : Nat
  /-- `STB`, the strobe level (R15) -/
  stb : Level
  /-- `BUSY`, a request is in flight (R16) -/
  busy : Bool
  /-- `STATUS`, of the last finished request (R17) -/
  status : Status
  /-- `PLAN`, the frames of the request in flight (R18) -/
  plan : List Frame
  /-- `Q`, index of the frame being sent (R18) -/
  q : Nat
  /-- `K`, index of the next bus event in that frame (R18) -/
  k : Nat
  /-- `FB[0..7]`, the frame buffer (R19) -/
  fb : Vector Pair 8
  /-- the registers of the chained devices (R28, R29) -/
  mem : Memory
  /-- `SHIFTED`, bytes delivered to the chain since the last `sl` event, oldest first (R39) -/
  shifted : List Byte
  /-- the remaining moves of the agents around the FRAMER, next first (the model's own field, log 5) -/
  host : List HostMove
  /-- the trace so far, oldest first (R10) -/
  trace : List Event
  /-- XFER completes no transfer at present (the model's own field, R107, log 7) -/
  xferStalled : Bool
  /-- how many inbound bytes have been drawn (the model's own field, R21, log 8) -/
  draws : Nat
deriving DecidableEq, Repr

/-- The reasons the machine stops with a fault. -/
inductive Fault where
  /-- A request was presented while `BUSY = 1` (R106). Raised by every request's meaning and by a malformed request, through
  `submit`. Safe: the spec gives no behaviour there. -/
  | protocolViolation
  /-- A pair executed at a position `p >= N`: no such device (R28). Raised by the pair meanings. Safe; no run of the
  FRAMER reaches it. -/
  | noSuchDevice
  /-- A strobe-high event that is no rising edge, or after other than `2*N` bytes (R39: "outside this model"). Raised by
  the strobe-high step. Safe; no run of the FRAMER reaches it. -/
  | badBracket
  /-- A byte shifted while the strobe is high (R39: "outside this model"). Raised by the byte step. Safe; no run of the
  FRAMER reaches it. -/
  | strayShift
  /-- `PLAN`, `Q`, `K` name no byte to send, against R18. Raised by the send step. Safe; no run of the FRAMER
  reaches it. -/
  | brokenSequencer
deriving DecidableEq, Repr

/-- The reasons a step is refused. -/
inductive Refusal where
  /-- An instruction whose arm has no meaning yet. No arm raises it. Safe. -/
  | notModelled (mnemonic : String)
  /-- Construction with a length outside 1..8: no instance exists (R106, R114). Raised by the HOST's reset move. Safe. -/
  | invalidConfiguration (length : Nat)
deriving DecidableEq, Repr

/-- The three outcomes of a step of this machine. -/
abbrev Result := Host.Outcome State Fault Refusal

/-- The first instance on a chain of `n` devices (R25, R26, R113): idle, strobe high, no device register with a value,
nothing on the bus. The slots of `fb` (log 2), `shifted` (log 4) and the model's own fields (log 5, 7, 8, 18) have values
the spec does not give. -/
def State.powerUp (n : Nat) : State where
  len := n
  stb := .high
  busy := false
  status := .ok
  plan := []
  q := 0
  k := 0
  fb := Vector.replicate 8 ⟨Config.resetSlotByte, Config.resetSlotByte⟩
  mem := []
  shifted := []
  host := []
  trace := []
  xferStalled := false
  draws := 0

/-- The machine right after reset: the instance of `Config.chainLength` devices (log 1). -/
def State.reset : State := State.powerUp Config.chainLength

/-- An instance of `n` devices with a HOST that issues the requests `program` one after another (R27, R75, R119). -/
def State.launch (n : Nat) (program : List (List Byte)) : State :=
  { State.powerUp n with host := program.map HostMove.request }

end Sys2Proof.Machine
end

