-- ==== Sys2Proof/Machine/Flags.lean ====
section
/-! DEFINITION. The writes of the one-bit and status registers: `STB` (R15), `BUSY` (R16) and `STATUS` (R17). -/

namespace Sys2Proof.Machine

/-- `emit(e)`: append an event to the trace (R12). -/
def State.emit (e : Event) (s : State) : State := { s with trace := s.trace ++ [e] }

/-- Drive the strobe line (R12, R15). -/
def State.setStrobe (l : Level) (s : State) : State := { s with stb := l }

/-- `respond(s)`: end the request with a status, `STATUS <- s`, `BUSY <- 0`, append `Resp(s)` (R12, R17). -/
def State.respond (st : Status) (s : State) : State :=
  { s with status := st, busy := false, trace := s.trace ++ [Event.resp st] }

/-- What the HOST may learn from `STATUS`: the last response's status while `BUSY = 0`, and nothing while `BUSY = 1`
(R17, R121; 93_implementation_defined.md U16, log 17). -/
def State.hostStatus (s : State) : Option Status :=
  if s.busy then none else some s.status

end Sys2Proof.Machine
end

