-- ==== Sys2Proof/Machine/Operands.lean ====
section
/-! DEFINITION. How a request's operands become data bytes and frames (R67, R88; the frames `same` of R92 and `one` of
R90). Everything is on unsigned bytes. -/

namespace Sys2Proof.Machine

/-- `(n - 1) mod 256`, unchecked (R81, R88 a). -/
def scanLimitData (n : Byte) : Byte := n - 1#8

/-- `min(v, 0x0F)`, a saturation (R82, R88 b). -/
def clampIntensity (v : Byte) : Byte := if v.toNat ≤ 15 then v else 0x0F#8

/-- CONFIGURE's intensity operand: zero becomes `INTENSITY_DEFAULT` (R79, R88 c). -/
def substituteZero (iv : Byte) : Byte := if iv = 0#8 then Config.intensityDefault else iv

/-- `decode_pattern(n)`, a table (R83, R88 d). -/
def decodePattern (n : Byte) : Byte :=
  match n.toNat with
  | 1 => 0x01#8
  | 2 => 0x0F#8
  | 3 => 0x0F#8
  | 4 => 0x0F#8
  | 8 => 0xFF#8
  | _ => 0x00#8

/-- CONFIGURE's digit count is in 1..8 (R71, R79, R88 e). -/
def digitCountOk (dc : Byte) : Bool := decide (1 ≤ dc.toNat ∧ dc.toNat ≤ 8)

/-- The wire pair of a command: its register's address and its data, unmodified (R67). -/
def commandPair (c : Command) : Pair := ⟨c.reg.address, c.data⟩

/-- The padding pair (R66). -/
def noopPair : Pair := ⟨0x00#8, 0x00#8⟩

/-- `same(r, d)`: `n` positions that all hold the same pair (R92). -/
def sameFrame (n : Nat) (c : Command) : Frame := List.replicate n (commandPair c)

/-- `one(idx, r, d)`: the pair at position `idx`, the padding pair at every other of the `n` positions (R90). -/
def oneFrame (n idx : Nat) (c : Command) : Frame :=
  (List.range n).map (fun p => if p = idx then commandPair c else noopPair)

end Sys2Proof.Machine
end

