-- ==== Sys2Proof/Machine/Ops.lean ====
section
/-! DEFINITION. The named operations over memory, frames and the sequencer that the meanings share: the device register
space (R28, R40), the wire order (R31, R64), loading the frame buffer and the plan (R19, R22), a rejection (R102), and
the one place where a request enters (R22 `accept`). -/

namespace Sys2Proof.Machine

/-- The key of device register `(p, r)` (R28, log 21). -/
def devAddr (p : Nat) (r : Byte) : Nat := p * 256 + r.toNat

/-- The canonical form of memory: keys strictly rising. An unlisted key has no value, so every entry differs from it. -/
abbrev Memory.wf (m : Memory) : Prop := List.Pairwise (fun a b : Host.Cell => a.1 < b.1) m

/-- The byte at a key; none where no commit has written yet (R26). -/
def Memory.read (m : Memory) (a : Nat) : Option Byte :=
  match m with
  | [] => none
  | c :: rest => if c.1 = a then some c.2 else Memory.read rest a

/-- Write one byte, keeping the keys rising. -/
def Memory.write (m : Memory) (a : Nat) (v : Byte) : Memory :=
  match m with
  | [] => [(a, v)]
  | c :: rest =>
    if a < c.1 then (a, v) :: c :: rest
    else if a = c.1 then (a, v) :: rest
    else c :: Memory.write rest a v

/-- Take the value from every register of device `p` (log 14). -/
def Memory.forgetDevice (m : Memory) (p : Nat) : Memory := m.filter (fun c => c.1 / 256 ≠ p)

/-- `DevLatch(p, reg, d)` on the register space: the no-op changes nothing (R41), every other register takes the byte
(R42 to R54). -/
def Memory.latch (m : Memory) (p : Nat) (reg : DevReg) (d : Byte) : Memory :=
  match reg with
  | .noop => m
  | _ => m.write (devAddr p reg.address) d

/-- Register `reg` of device `p`; none until it has been written (R26). -/
def State.deviceRegister (s : State) (p : Nat) (reg : DevReg) : Option Byte := s.mem.read (devAddr p reg.address)

/-- Device `p` latches `d` into `reg` (R40). A position `p >= N` has no device (R28, log 13). -/
def latchRegister (p : Nat) (reg : DevReg) (d : Byte) (s : State) : Result :=
  if p < s.len then .next { s with mem := s.mem.latch p reg d } else .fault .noSuchDevice

/-- Every register of device `p` loses its value: what an unassigned register address in the shift path does
(93_implementation_defined.md U2, log 14). The FRAMER never sends one (R30). -/
def State.forgetDevice (p : Nat) (s : State) : State := { s with mem := s.mem.forgetDevice p }

/-- The `2*N` bytes of a frame in wire order: position 0 first, register byte before data byte (R31). -/
def frameBytes (f : Frame) : List Byte := f.flatMap (fun c => [c.reg, c.data])

/-- `frame_events(F)`: strobe low, the bytes, strobe high (R64). -/
def frameEvents (f : Frame) : List Event := [Event.sl] ++ (frameBytes f).map Event.b ++ [Event.sh]

/-- The byte at wire offset `j` (R22, R31). -/
def wireByte (f : Frame) (j : Nat) : Option Byte :=
  (f[j / 2]?).map (fun c => if j % 2 = 0 then c.reg else c.data)

/-- `FB[p] <- F[p]` for the positions of the frame; the other slots keep their contents (R19, R22). -/
def loadFrame (f : Frame) (fb : Vector Pair 8) : Vector Pair 8 :=
  Vector.ofFn fun p : Fin 8 => (f[p.val]?).getD fb[p]

/-- `xfer(b)`: `emit(B(b))` and deliver the byte to the chain's shift path (R12, R39). The inbound byte is discarded
(R21); the draw is counted. -/
def State.xfer (b : Byte) (_inbound : Byte) (s : State) : State :=
  { s with trace := s.trace ++ [Event.b b], shifted := s.shifted ++ [b], draws := s.draws + 1 }

/-- `raise <Cause>`: reject the request (R12, R102). `STATUS <- code` and `Resp(code)`, and nothing else: no bus event, no
saved state, no handler. There is nothing to return from: the FRAMER is idle and accepts the next request at once
(R103). -/
def State.reject (c : Rejection) (s : State) : State :=
  { s with status := .rejected c, trace := s.trace ++ [Event.resp (.rejected c)] }

/-- Acceptance of a request that will transmit: `PLAN <- frames; (Q, K) <- (0, 0); BUSY <- 1` and `FB` takes the first
frame (R22). -/
def State.loadPlan (fs : List Frame) (s : State) : State :=
  { s with busy := true, plan := fs, q := 0, k := 0, fb := loadFrame (fs.head?.getD []) s.fb }

/-- The `accept` step after the checks (R22): reject, or take the frames. A request while `BUSY = 1` is the contract
violation (R106, log 6). -/
def submit (checked : Except Rejection (List Frame)) (s : State) : Result :=
  if s.busy then .fault .protocolViolation
  else
    match checked with
    | .error c => .next (s.reject c)
    | .ok fs => .next (s.loadPlan fs)

end Sys2Proof.Machine
end

