-- ==== Sys2Proof/Machine/Configure.lean ====
section
/-! DEFINITION. The CONFIGURE request (40_configure.md). -/

namespace Sys2Proof.Machine

/-- `frames(N, CONFIGURE dc iv)`: the digit count is checked before anything is sent (R79, 90_conflicts.md C2), then five
frames in the fixed order of R80: display test off, scan limit, intensity, full BCD decoding, shutdown off. -/
def framesConfigure (n : Nat) (dc iv : Byte) : Except Rejection (List Frame) :=
  if digitCountOk dc then
    .ok [sameFrame n ⟨.displayTest, 0x00#8⟩,
      sameFrame n ⟨.scanLimit, dc - 1#8⟩,
      sameFrame n ⟨.intensity, clampIntensity (substituteZero iv)⟩,
      sameFrame n ⟨.decodeMode, 0xFF#8⟩,
      sameFrame n ⟨.shutdown, 0x01#8⟩]
  else .error .invalidConfiguration

/-- CONFIGURE `dc`, `iv` (R79). -/
def execConfigure (dc iv : Byte) (s : State) : Result := submit (framesConfigure s.len dc iv) s

end Sys2Proof.Machine
end

