-- ==== Sys2Proof/Machine/Devices.lean ====
section
/-! DEFINITION. The fourteen pairs as the device at position `p` executes them at the commit (20_memory.md R41 to R54), and
what the spec says the registers mean (R50 to R55, R110, R111). -/

namespace Sys2Proof.Machine

/-- NOOP (R41): changes nothing in device `p`, whatever the data byte is. -/
def execNoop (p : Nat) (d : Byte) (s : State) : Result := latchRegister p .noop d s

/-- DIGIT0 (R42). -/
def execDigit0 (p : Nat) (d : Byte) (s : State) : Result := latchRegister p .digit0 d s

/-- DIGIT1 (R43). -/
def execDigit1 (p : Nat) (d : Byte) (s : State) : Result := latchRegister p .digit1 d s

/-- DIGIT2 (R44). -/
def execDigit2 (p : Nat) (d : Byte) (s : State) : Result := latchRegister p .digit2 d s

/-- DIGIT3 (R45). -/
def execDigit3 (p : Nat) (d : Byte) (s : State) : Result := latchRegister p .digit3 d s

/-- DIGIT4 (R46). -/
def execDigit4 (p : Nat) (d : Byte) (s : State) : Result := latchRegister p .digit4 d s

/-- DIGIT5 (R47). -/
def execDigit5 (p : Nat) (d : Byte) (s : State) : Result := latchRegister p .digit5 d s

/-- DIGIT6 (R48). -/
def execDigit6 (p : Nat) (d : Byte) (s : State) : Result := latchRegister p .digit6 d s

/-- DIGIT7 (R49). -/
def execDigit7 (p : Nat) (d : Byte) (s : State) : Result := latchRegister p .digit7 d s

/-- DECODE_MODE (R50): the whole byte is held. -/
def execDecodeMode (p : Nat) (d : Byte) (s : State) : Result := latchRegister p .decodeMode d s

/-- INTENSITY (R51): the whole byte is held, above 15 too. -/
def execIntensity (p : Nat) (d : Byte) (s : State) : Result := latchRegister p .intensity d s

/-- SCAN_LIMIT (R52): the whole byte is held, above 7 too. -/
def execScanLimit (p : Nat) (d : Byte) (s : State) : Result := latchRegister p .scanLimit d s

/-- SHUTDOWN (R53): no other register of the device changes. -/
def execShutdown (p : Nat) (d : Byte) (s : State) : Result := latchRegister p .shutdown d s

/-- DISPLAY_TEST (R54): no other register of the device changes. -/
def execDisplayTest (p : Nat) (d : Byte) (s : State) : Result := latchRegister p .displayTest d s

/-- The power mode of a device (R53, R55, R111). -/
inductive PowerMode where
  | shutdown
  | normal
deriving DecidableEq, Repr

/-- The test mode of a device (R54, R55, R110). -/
inductive TestMode where
  | test
  | normal
deriving DecidableEq, Repr

/-- What a digit register's byte means: "a 4-bit BCD value when the digit is BCD-decoded", "a raw segment pattern otherwise"
(R42, R50). -/
inductive DigitMeaning where
  | bcd (value : BitVec 4)
  | segments (pattern : Byte)
deriving DecidableEq, Repr

/-- What a device's display does, at the grain the spec gives (R53, R54). -/
inductive Display where
  /-- shutdown "blanks the display" -/
  | blank
  /-- test mode "forces all segments on" -/
  | allOn
  /-- the digit registers show -/
  | digits
deriving DecidableEq, Repr

/-- The power mode of device `p`: 0 shutdown, 1 normal; the spec defines it for no other byte and for no unwritten
register (R53, R55, U7, log 20). -/
def State.powerMode (s : State) (p : Nat) : Option PowerMode :=
  match s.deviceRegister p .shutdown with
  | none => none
  | some d => if d = 0#8 then some .shutdown else if d = 1#8 then some .normal else none

/-- The test mode of device `p`: 1 test, 0 normal; otherwise not defined (R54, R55, U7, log 20). -/
def State.testMode (s : State) (p : Nat) : Option TestMode :=
  match s.deviceRegister p .displayTest with
  | none => none
  | some d => if d = 1#8 then some .test else if d = 0#8 then some .normal else none

/-- How many digits device `p` scans: `d + 1` for `d` in 0..7, otherwise not defined (R52, U5). -/
def State.activeDigits (s : State) (p : Nat) : Option Nat :=
  match s.deviceRegister p .scanLimit with
  | none => none
  | some d => if d.toNat ≤ 7 then some (d.toNat + 1) else none

/-- The intensity level of device `p`, 0..15, otherwise not defined (R51, U6). -/
def State.intensityLevel (s : State) (p : Nat) : Option Nat :=
  match s.deviceRegister p .intensity with
  | none => none
  | some d => if d.toNat ≤ 15 then some d.toNat else none

/-- Whether digit `i` of device `p` is BCD-decoded: bit `i` of DECODE_MODE (R50). -/
def State.digitDecoded (s : State) (p : Nat) (i : Fin 8) : Option Bool :=
  (s.deviceRegister p .decodeMode).map (fun d => d.getLsbD i.val)

/-- The register of digit `i` (R29). -/
def digitReg : Fin 8 → DevReg
  | 0 => .digit0
  | 1 => .digit1
  | 2 => .digit2
  | 3 => .digit3
  | 4 => .digit4
  | 5 => .digit5
  | 6 => .digit6
  | 7 => .digit7

/-- The 4-bit BCD value of a decoded digit's byte (R42). DESIGN CHOICE (log 25): the spec gives four bits and does not say
what the upper four do, so a byte above 0x0F has no defined value. -/
def bcdValue (d : Byte) : Option (BitVec 4) := if d.toNat ≤ 15 then some (BitVec.ofNat 4 d.toNat) else none

/-- What digit `i` of device `p` holds: a 4-bit BCD value when decoded, a segment pattern otherwise (R42 to R50); not
defined for an unwritten register (log 20), nor for a decoded byte above 0x0F (log 25). -/
def State.digitMeaning (s : State) (p : Nat) (i : Fin 8) : Option DigitMeaning :=
  match s.deviceRegister p (digitReg i), s.digitDecoded p i with
  | some d, some true => (bcdValue d).map .bcd
  | some d, some false => some (.segments d)
  | _, _ => none

/-- What device `p` shows. Not defined where a mode is not, nor in test mode while shut down (R55, U8). -/
def State.display (s : State) (p : Nat) : Option Display :=
  match s.powerMode p, s.testMode p with
  | some .shutdown, some .normal => some .blank
  | some .normal, some .test => some .allOn
  | some .normal, some .normal => some .digits
  | _, _ => none

/-- Register `reg` of a physical chip under a placement of the chain (R32, log 11). -/
def State.chipRegister (s : State) (place : Config.PositionMap s.len) (chip : Fin s.len) (reg : DevReg) : Option Byte :=
  s.deviceRegister (place.symm chip).val reg

/-- The eight bits of a byte in the order XFER shifts them (R33, log 11). -/
def lineBits (o : Config.BitOrder) (b : Byte) : List Bool :=
  match o with
  | .msbFirst => (List.range 8).map (fun i => b.getLsbD (7 - i))
  | .lsbFirst => (List.range 8).map (fun i => b.getLsbD i)

end Sys2Proof.Machine
end

