-- ==== Sys2Proof/Machine/Primitives.lean ====
section
/-! DEFINITION. The frame primitives WRITE_ONE, WRITE_ALL and WRITE_SAME (42_frame_primitives.md). A reserved register
byte has been refused by the decoder, before these checks (R73, R101). -/

namespace Sys2Proof.Machine

/-- `frames(N, WRITE_ONE idx reg data)` (R90): `idx >= N` is rejected; the data is sent as given. -/
def framesWriteOne (n : Nat) (idx : Byte) (reg : DevReg) (data : Byte) : Except Rejection (List Frame) :=
  if idx.toNat < n then .ok [oneFrame n idx.toNat ⟨reg, data⟩] else .error .invalidDeviceIndex

/-- `frames(N, WRITE_ALL c_0 ..)` (R91): the count must be `N`; a short frame is not padded, a long one not cut. -/
def framesWriteAll (n : Nat) (cmds : List Command) : Except Rejection (List Frame) :=
  if cmds.length = n then .ok [cmds.map commandPair] else .error .frameLengthMismatch

/-- `frames(N, WRITE_SAME reg data)` (R92). -/
def framesWriteSame (n : Nat) (reg : DevReg) (data : Byte) : Except Rejection (List Frame) :=
  .ok [sameFrame n ⟨reg, data⟩]

/-- WRITE_ONE `idx`, `reg`, `data` (R90). -/
def execWriteOne (idx : Byte) (reg : DevReg) (data : Byte) (s : State) : Result :=
  submit (framesWriteOne s.len idx reg data) s

/-- WRITE_ALL `c_0, ..., c_{cnt-1}` (R91). -/
def execWriteAll (cmds : List Command) (s : State) : Result := submit (framesWriteAll s.len cmds) s

/-- WRITE_SAME `reg`, `data` (R92). -/
def execWriteSame (reg : DevReg) (data : Byte) (s : State) : Result := submit (framesWriteSame s.len reg data) s

end Sys2Proof.Machine
end

