-- ==== Sys2Proof/Machine/Setters.lean ====
section
/-! DEFINITION. The seven feature setters (41_feature_setters.md): each sends one register's byte to every device. None
can be rejected once decoded. -/

namespace Sys2Proof.Machine

/-- `frames(N, SET_SCAN_LIMIT n)` (R81): no value of `n` is checked. -/
def framesSetScanLimit (n : Nat) (digits : Byte) : Except Rejection (List Frame) :=
  .ok [sameFrame n ⟨.scanLimit, scanLimitData digits⟩]

/-- `frames(N, SET_INTENSITY v)` (R82): zero stays zero. -/
def framesSetIntensity (n : Nat) (v : Byte) : Except Rejection (List Frame) :=
  .ok [sameFrame n ⟨.intensity, clampIntensity v⟩]

/-- `frames(N, SET_DECODE_MODE n)` (R83). -/
def framesSetDecodeMode (n : Nat) (digits : Byte) : Except Rejection (List Frame) :=
  .ok [sameFrame n ⟨.decodeMode, decodePattern digits⟩]

/-- `frames(N, ENTER_SHUTDOWN)` (R84). -/
def framesEnterShutdown (n : Nat) : Except Rejection (List Frame) := .ok [sameFrame n ⟨.shutdown, 0x00#8⟩]

/-- `frames(N, EXIT_SHUTDOWN)` (R85). -/
def framesExitShutdown (n : Nat) : Except Rejection (List Frame) := .ok [sameFrame n ⟨.shutdown, 0x01#8⟩]

/-- `frames(N, ENTER_DISPLAY_TEST)` (R86). -/
def framesEnterDisplayTest (n : Nat) : Except Rejection (List Frame) := .ok [sameFrame n ⟨.displayTest, 0x01#8⟩]

/-- `frames(N, EXIT_DISPLAY_TEST)` (R87). -/
def framesExitDisplayTest (n : Nat) : Except Rejection (List Frame) := .ok [sameFrame n ⟨.displayTest, 0x00#8⟩]

/-- SET_SCAN_LIMIT `n` (R81). -/
def execSetScanLimit (n : Byte) (s : State) : Result := submit (framesSetScanLimit s.len n) s

/-- SET_INTENSITY `v` (R82). -/
def execSetIntensity (v : Byte) (s : State) : Result := submit (framesSetIntensity s.len v) s

/-- SET_DECODE_MODE `n` (R83). -/
def execSetDecodeMode (n : Byte) (s : State) : Result := submit (framesSetDecodeMode s.len n) s

/-- ENTER_SHUTDOWN (R84). -/
def execEnterShutdown (s : State) : Result := submit (framesEnterShutdown s.len) s

/-- EXIT_SHUTDOWN (R85). -/
def execExitShutdown (s : State) : Result := submit (framesExitShutdown s.len) s

/-- ENTER_DISPLAY_TEST (R86). -/
def execEnterDisplayTest (s : State) : Result := submit (framesEnterDisplayTest s.len) s

/-- EXIT_DISPLAY_TEST (R87). -/
def execExitDisplayTest (s : State) : Result := submit (framesExitDisplayTest s.len) s

end Sys2Proof.Machine
end

