-- ==== Sys2Proof/Machine/Dispatch.lean ====
section
/-! DEFINITION. The dispatch: one arm per constructor of Instr, each one direct call of its meaning. -/

namespace Sys2Proof.Machine

def exec (i : Instr) (s : State) : Host.Outcome State Fault Refusal :=
  match i with
  | .configure dc iv => Sys2Proof.Machine.execConfigure dc iv s
  | .setScanLimit n => Sys2Proof.Machine.execSetScanLimit n s
  | .setIntensity v => Sys2Proof.Machine.execSetIntensity v s
  | .setDecodeMode n => Sys2Proof.Machine.execSetDecodeMode n s
  | .enterShutdown => Sys2Proof.Machine.execEnterShutdown s
  | .exitShutdown => Sys2Proof.Machine.execExitShutdown s
  | .enterDisplayTest => Sys2Proof.Machine.execEnterDisplayTest s
  | .exitDisplayTest => Sys2Proof.Machine.execExitDisplayTest s
  | .writeOne idx reg data => Sys2Proof.Machine.execWriteOne idx reg data s
  | .writeAll cmds => Sys2Proof.Machine.execWriteAll cmds s
  | .writeSame reg data => Sys2Proof.Machine.execWriteSame reg data s
  | .noop p d => Sys2Proof.Machine.execNoop p d s
  | .digit0 p d => Sys2Proof.Machine.execDigit0 p d s
  | .digit1 p d => Sys2Proof.Machine.execDigit1 p d s
  | .digit2 p d => Sys2Proof.Machine.execDigit2 p d s
  | .digit3 p d => Sys2Proof.Machine.execDigit3 p d s
  | .digit4 p d => Sys2Proof.Machine.execDigit4 p d s
  | .digit5 p d => Sys2Proof.Machine.execDigit5 p d s
  | .digit6 p d => Sys2Proof.Machine.execDigit6 p d s
  | .digit7 p d => Sys2Proof.Machine.execDigit7 p d s
  | .decodeMode p d => Sys2Proof.Machine.execDecodeMode p d s
  | .intensity p d => Sys2Proof.Machine.execIntensity p d s
  | .scanLimit p d => Sys2Proof.Machine.execScanLimit p d s
  | .shutdown p d => Sys2Proof.Machine.execShutdown p d s
  | .displayTest p d => Sys2Proof.Machine.execDisplayTest p d s

end Sys2Proof.Machine
end

