-- ==== Sys2Proof/Machine/Commit.lean ====
section
/-! DEFINITION. The commit (R40): at the strobe-high event every device of the chain decodes and executes the pair that
stands at its position of the shift path, all in one step. -/

namespace Sys2Proof.Machine

/-- Device `p` decodes its pair and executes it (R40, R63). A pair that decodes to nothing leaves no register of the
device with a value (U2, log 14). -/
def latchPair (p : Nat) (r d : Byte) (s : State) : Result :=
  match decode (.device p) [r, d] with
  | .ok i => exec i s
  | .error _ => .next (s.forgetDevice p)

/-- The pairs of the shift path, executed by the devices from position `p` on. Each pair writes its own device only, so
the order in which the positions are taken cannot be seen (R36, log 22). -/
def latchFrom (p : Nat) (bytes : List Byte) (s : State) : Result :=
  match bytes with
  | [] => .next s
  | [_] => .fault .badBracket
  | r :: d :: rest =>
    match latchPair p r d s with
    | .next t => latchFrom (p + 1) rest t
    | .fault x => .fault x
    | .refused x => .refused x

/-- The commit: all `N` devices latch the pairs of `SHIFTED` (R40). A bracket of another length than `2*N` bytes, and a
strobe that is already high, are outside the spec's model of the chain (R39, log 15). -/
def commit (s : State) : Result :=
  if s.stb = .low ∧ s.shifted.length = 2 * s.len then latchFrom 0 s.shifted s else .fault .badBracket

end Sys2Proof.Machine
end

