-- ==== Sys2Proof/Machine/Sequencer.lean ====
section
/-! DEFINITION. The step relation of R22: `accept(req)` and `send`, one bus event per `send`. -/

namespace Sys2Proof.Machine

/-- `accept(req)` (R22): decode, then check and reject or load the plan. Every malformed request is `IllegalRequest`
(R73, R101). -/
def accept (req : List Byte) (s : State) : Result :=
  match decode .host req with
  | .ok i => exec i s
  | .error _ => submit (.error .illegalRequest) s

/-- `K = 0`: `STB <- 0; emit(SL); K <- 1` (R22); the shift path is empty again (R39). -/
def sendStrobeLow (s : State) : State := { (s.setStrobe .low).emit .sl with shifted := [], k := 1 }

/-- `1 <= K <= 2*N`: hand the byte at wire offset `K - 1` to XFER; `K <- K + 1` (R22). While XFER does not complete, the
FRAMER stays where it is (R22, R107). -/
def sendByte (f : Frame) (s : State) : Result :=
  match wireByte f (s.k - 1) with
  | none => .fault .brokenSequencer
  | some b =>
    if s.stb = .high then .fault .strayShift
    else if s.xferStalled then .next s
    else .next { s.xfer b (Config.inboundByte s.draws) with k := s.k + 1 }

/-- After the strobe-high event: the next frame, or the end of the request with status OK (R22). -/
def advance (s : State) : State :=
  match s.plan[s.q + 1]? with
  | some f => { s with q := s.q + 1, k := 0, fb := loadFrame f s.fb }
  | none => { s with plan := [], q := 0, k := 0 }.respond .ok

/-- `K = 2*N + 1`: `STB <- 1; emit(SH)`, the commit, then advance (R22, R40). -/
def sendStrobeHigh (s : State) : Result :=
  match commit s with
  | .next t => .next (advance ((t.setStrobe .high).emit .sh))
  | .fault x => .fault x
  | .refused x => .refused x

/-- `send`, enabled when `BUSY = 1` (R22). -/
def send (s : State) : Result :=
  match s.plan[s.q]? with
  | none => .fault .brokenSequencer
  | some f =>
    if s.k = 0 then .next (sendStrobeLow s)
    else if s.k ≤ 2 * s.len then sendByte f s
    else if s.k = 2 * s.len + 1 then sendStrobeHigh s
    else .fault .brokenSequencer

/-- The FRAMER's own step: `send` while busy; idle and unasked it waits, and the state stays as it is (R22, R25, log 5). -/
def framerStep (s : State) : Result := if s.busy then send s else .next s

/-- Construction (R113, R114): a length in 1..8 gives the idle state of R25 on the same downstream ports, and no bus
event. The devices keep their registers when the instance was idle and the chain is as long as before; a reset in
mid-request leaves every device register without a value (R115, log 9), and so does another length (log 9). `FB` is
unspecified after construction and keeps its contents (R25, log 16). -/
def construct (length : Nat) (s : State) : Result :=
  if 1 ≤ length ∧ length ≤ Config.maxN then
    .next { s with
      len := length, stb := .high, busy := false, status := .ok, plan := [], q := 0, k := 0,
      mem := if s.busy = false ∧ s.stb = .high ∧ length = s.len then s.mem else [] }
  else .refused (.invalidConfiguration length)

end Sys2Proof.Machine
end

