-- ==== Sys2Proof/Machine/Step.lean ====
section
/-! DEFINITION. One step of the whole system: the HOST's next move says who acts (R4, R119, R121), and where a table word
stands when the next step is to run it. -/

namespace Sys2Proof.Machine

/-- One step. A waiting request is accepted when `BUSY = 0`, and until then the FRAMER sends (R22, R119). A request that
does not wait reaches the FRAMER at once, and while `BUSY = 1` that is the fault of R106. -/
def step (s : State) : Host.Outcome State Fault Refusal :=
  match s.host with
  | [] => framerStep s
  | .letRun :: rest => framerStep { s with host := rest }
  | .bus stalls :: rest => framerStep { s with host := rest, xferStalled := stalls }
  | .reset length :: rest => construct length { s with host := rest }
  | .requestNow req :: rest => accept req { s with host := rest }
  | .request req :: rest => if s.busy then framerStep s else accept req { s with host := rest }

/-- The state whose next step runs a row of spec/opcode_table.json (log 12). A request row: the HOST's next move presents
its bytes to the idle FRAMER. A pair row (16 bits): the chain has shifted in a frame with that pair at position 0 and the
padding pair elsewhere, and the strobe is about to rise. -/
def State.withFetchWord (s : State) (nbits w : Nat) : State :=
  if nbits = 16 then
    let f : Frame := ⟨BitVec.ofNat 8 (w / 256), BitVec.ofNat 8 w⟩ :: List.replicate (s.len - 1) noopPair
    { s with
      host := .letRun :: s.host, busy := true, stb := .low, plan := [f], q := 0, k := 2 * s.len + 1,
      fb := loadFrame f s.fb, shifted := frameBytes f }
  else
    { s with
      host := .request (tableRequest nbits w) :: s.host, busy := false, stb := .high, plan := [], q := 0, k := 0 }

end Sys2Proof.Machine
end

