-- ==== Sys2Proof/Machine/Transaction.lean ====
section
/-! DEFINITION. The transaction level of R10 and R89: a request's status and bus events as one function of `N` and the
request, and the request as one atomic change of the state ("equally valid", R22). Claims tie it to the step relation. -/

namespace Sys2Proof.Machine

/-- `frames(N, req)` with the checks of `decode_and_check`, for each request (R89). A device pair is no request, and
`decode .host` never yields one. -/
def frames (n : Nat) : Instr → Except Rejection (List Frame)
  | .configure dc iv => framesConfigure n dc iv
  | .setScanLimit m => framesSetScanLimit n m
  | .setIntensity v => framesSetIntensity n v
  | .setDecodeMode m => framesSetDecodeMode n m
  | .enterShutdown => framesEnterShutdown n
  | .exitShutdown => framesExitShutdown n
  | .enterDisplayTest => framesEnterDisplayTest n
  | .exitDisplayTest => framesExitDisplayTest n
  | .writeOne idx reg data => framesWriteOne n idx reg data
  | .writeAll cmds => framesWriteAll n cmds
  | .writeSame reg data => framesWriteSame n reg data
  | .noop _ _ => .error .illegalRequest
  | .digit0 _ _ => .error .illegalRequest
  | .digit1 _ _ => .error .illegalRequest
  | .digit2 _ _ => .error .illegalRequest
  | .digit3 _ _ => .error .illegalRequest
  | .digit4 _ _ => .error .illegalRequest
  | .digit5 _ _ => .error .illegalRequest
  | .digit6 _ _ => .error .illegalRequest
  | .digit7 _ _ => .error .illegalRequest
  | .decodeMode _ _ => .error .illegalRequest
  | .intensity _ _ => .error .illegalRequest
  | .scanLimit _ _ => .error .illegalRequest
  | .shutdown _ _ => .error .illegalRequest
  | .displayTest _ _ => .error .illegalRequest

/-- `decode_and_check(N, req)` (R73, R101). -/
def decodeAndCheck (n : Nat) (req : List Byte) : Except Rejection (List Frame) :=
  match decode .host req with
  | .ok i => frames n i
  | .error _ => .error .illegalRequest

/-- The transaction function `exec(N, req) = (status, events)` (R89). -/
def transaction (n : Nat) (req : List Byte) : Status × List Event :=
  match decodeAndCheck n req with
  | .error c => (.rejected c, [])
  | .ok fs => (.ok, fs.flatMap frameEvents)

/-- The pairs of a frame latched by the devices from position `p` on (R40). -/
def Memory.latchPairs (m : Memory) (p : Nat) (f : Frame) : Memory :=
  match f with
  | [] => m
  | c :: rest =>
    match DevReg.ofAddress c.reg with
    | some reg => Memory.latchPairs (m.latch p reg c.data) (p + 1) rest
    | none => Memory.latchPairs (m.forgetDevice p) (p + 1) rest

/-- `transmit(F)`, one whole strobed burst as one change of an idle state (R89). -/
def State.transmit (f : Frame) (s : State) : State :=
  { s with
    stb := .high, fb := loadFrame f s.fb, mem := s.mem.latchPairs 0 f, shifted := frameBytes f,
    trace := s.trace ++ frameEvents f, draws := s.draws + 2 * f.length }

/-- All frames of a request, in order (R56, R89). -/
def State.transmitAll (fs : List Frame) (s : State) : State := fs.foldl (fun t f => t.transmit f) s

/-- A request as one atomic change of an idle state: rejected, or all frames sent and the response given (R10, R22). -/
def State.transact (req : List Byte) (s : State) : State :=
  match decodeAndCheck s.len req with
  | .error c => s.reject c
  | .ok fs => (s.transmitAll fs).respond .ok

end Sys2Proof.Machine
end

