-- ==== Sys2Proof/Safety.lean ====
section
/-! DEFINITION. The terms claims are made in: the invariant of R23 over the state, the bracket form of the trace (R23 c, e),
well-behaved hosts (R119, R121), and runs. -/

namespace Sys2Proof.Machine

/-- `k` steps of the machine, stopping at the first fault or refusal. -/
abbrev run (k : Nat) (s : State) : Result := Host.Core.run Sys2Proof.core k s

/-- A frame a chain of `n` devices can be sent: `n` pairs, every register byte one of the fourteen (R23 b, d; R34). -/
abbrev Frame.wf (n : Nat) (f : Frame) : Prop :=
  f.length = n ∧ ∀ c ∈ f, (DevReg.ofAddress c.reg).isSome = true

/-- Every listed key is a stored register of one of the `n` devices (R28, R29, R41). -/
abbrev Memory.inSpace (n : Nat) (m : Memory) : Prop :=
  ∀ c ∈ m, c.1 / 256 < n ∧ c.1 % 256 ≠ 0 ∧ (DevReg.ofAddress (BitVec.ofNat 8 (c.1 % 256))).isSome = true

/-- `PLAN[Q]`, the frame being sent (R22). -/
def State.current (s : State) : Frame := (s.plan[s.q]?).getD []

/-- R23 (a): idle, the strobe is high and the sequencer rests. -/
abbrev State.AtRest (s : State) : Prop := s.stb = .high ∧ s.plan = [] ∧ s.q = 0 ∧ s.k = 0

/-- R23 (b, d) with R19 and R39: in flight, 1 or 5 whole frames, positions in range, the strobe low exactly from the
first byte on, the frame buffer equal to the frame being sent, the shift path equal to what has been sent of it. -/
abbrev State.InFlight (s : State) : Prop :=
  (s.plan.length = 1 ∨ s.plan.length = 5) ∧ s.q < s.plan.length ∧ (∀ f ∈ s.plan, Frame.wf s.len f) ∧
  s.k ≤ 2 * s.len + 1 ∧ (s.stb = .low ↔ 1 ≤ s.k) ∧ s.fb.toList.take s.len = s.current ∧
  (1 ≤ s.k → s.shifted = (frameBytes s.current).take (s.k - 1))

/-- The invariant: a legal chain length (R14), the register space in canonical form and inside the address space
(R28, R29), and R23 (a, b, d). -/
abbrev State.Inv (s : State) : Prop :=
  (1 ≤ s.len ∧ s.len ≤ 8) ∧ s.mem.wf ∧ s.mem.inSpace s.len ∧
  (s.busy = false → s.AtRest) ∧ (s.busy = true → s.InFlight)

/-- A move a well-behaved HOST makes: it waits for `BUSY = 0` before it presents a request (R119), and it does not
construct the instance anew. -/
def HostMove.courteous : HostMove → Bool
  | .request _ => true
  | .requestNow _ => false
  | .reset _ => false
  | .letRun => true
  | .bus _ => true

/-- A move that is a waiting request. -/
def HostMove.isRequest : HostMove → Bool
  | .request _ => true
  | .requestNow _ => false
  | .reset _ => false
  | .letRun => false
  | .bus _ => false

/-- Whether the next step is a construction (R113). -/
def State.resetNext (s : State) : Bool :=
  match s.host with
  | .reset _ :: _ => true
  | _ => false

/-- The automaton of R23 (c) for a chain of `n` devices. Outside a bracket (`none`) a strobe-low event or a response may
come; inside, `some j` counts the bytes since the strobe-low event, and the strobe-high event comes after exactly
`2*n`. -/
def bracketStep (n : Nat) : Option Nat → Event → Option (Option Nat)
  | none, .sl => some (some 0)
  | none, .resp _ => some none
  | none, .b _ => none
  | none, .sh => none
  | some j, .b _ => if j < 2 * n then some (some (j + 1)) else none
  | some j, .sh => if j = 2 * n then some none else none
  | some _, .sl => none
  | some _, .resp _ => none

/-- The automaton over a trace: none when the trace breaks R23 (c). -/
def bracketScan (n : Nat) : Option Nat → List Event → Option (Option Nat)
  | st, [] => some st
  | st, e :: es =>
    match bracketStep n st e with
    | none => none
    | some st' => bracketScan n st' es

/-- R23 (c): the trace is bracketed, and what is open at its end is the frame the sequencer is in. -/
abbrev State.TraceBracketed (s : State) : Prop :=
  bracketScan s.len none s.trace = some (if s.k = 0 then none else some (s.k - 1))

/-- Idle, on a chain of 1 to 8 devices, at rest, with transfers that complete (BusReady, R116, R131) and a HOST that has
only waiting requests left (R119). -/
abbrev State.Ready (s : State) : Prop :=
  (1 ≤ s.len ∧ s.len ≤ 8) ∧ s.busy = false ∧ s.AtRest ∧ s.xferStalled = false ∧
  s.host.all HostMove.isRequest = true

/-- The request of the accepted plan `fs` has been carried out: `len(PLAN) * (2*N + 2)` steps after acceptance the FRAMER is
idle again, every frame has been sent and committed, and the response is OK (R22, R131). -/
abbrev Delivers (s : State) (fs : List Frame) : Prop :=
  run (fs.length * (2 * s.len + 2)) (s.loadPlan fs) = .next ((s.transmitAll fs).respond .ok)

/-- The request `i` is accepted: it will transmit the frames `fs` (R22). The next state in full: `BUSY` set, the sequencer at
the first event of the first frame, the frame buffer loaded with that frame, and nothing else changed. -/
abbrev Accepts (i : Instr) (s : State) (fs : List Frame) : Prop :=
  exec i s = .next { s with busy := true, plan := fs, q := 0, k := 0, fb := loadFrame (fs.head?.getD []) s.fb }

/-- The state after a rejection with cause `c`, in full: `STATUS` and the response, nothing else (R102). -/
abbrev State.rejectedWith (s : State) (c : Rejection) : State :=
  { s with status := .rejected c, trace := s.trace ++ [Event.resp (.rejected c)] }

/-- The HOST makes no move in the next step of a busy FRAMER: it has no move left, or its next one is a waiting request. -/
def State.hostWaits (s : State) : Bool :=
  match s.host with
  | [] => true
  | .request _ :: _ => true
  | _ => false

/-- The instructions of a list, each executed on the state the one before leaves. -/
def execAll (instrs : List Instr) (s : State) : Result :=
  match instrs with
  | [] => .next s
  | i :: rest =>
    match exec i s with
    | .next t => execAll rest t
    | .fault x => .fault x
    | .refused x => .refused x

/-- The trace of one request at the transaction level: its bus events, then its response (R10). -/
def requestTrace (n : Nat) (req : List Byte) : List Event :=
  (transaction n req).2 ++ [Event.resp (transaction n req).1]
end Sys2Proof.Machine
end

