-- ==== Sys2Proof/Certificates/Slice0/Obligations.lean ====
section
/-! DEFINITION. The statements about the machine. `s.Inv`, `s.Ready`, `Accepts`, `Delivers` and the other terms are defined in
Sys2Proof/Safety.lean. -/

open Sys2Proof Sys2Proof.Machine

/-! Encoding -/

/-- Decoding the encoding of any well-formed instruction gives it back, with every operand at every value (R62, R63, R69,
R70, R72). -/
def Obligations.DecodeInvertsEncode : Prop :=
  ∀ i : Instr, i.wellFormed = true → decode i.space (encode i) = .ok i

/-- Whatever bytes decode to an instruction are its encoding, and the instruction is well formed: no two byte strings of a
space mean the same instruction. -/
def Obligations.EncodeInvertsDecode : Prop :=
  ∀ (sp : Space) (bytes : List Byte) (i : Instr), decode sp bytes = .ok i →
    encode i = bytes ∧ i.space = sp ∧ i.wellFormed = true

/-- Words the spec writes out decode to the instructions it gives them (95_test_vectors.md S6, V13, V22, V26, V35, V38, V47;
R63 for the pairs). -/
def Obligations.SpecWordsDecode : Prop :=
  decode .host [0x09#8, 0x01#8, 0x04#8, 0x5F#8] = .ok (.writeOne 1#8 .digit3 0x5F#8) ∧
  decode .host [0x0A#8, 0x02#8, 0x01#8, 0x11#8, 0x02#8, 0x22#8] = .ok (.writeAll [⟨.digit0, 0x11#8⟩, ⟨.digit1, 0x22#8⟩]) ∧
  decode .host [0x0B#8, 0x0C#8, 0x01#8] = .ok (.writeSame .shutdown 0x01#8) ∧
  decode .host [0x02#8, 0x04#8] = .ok (.setScanLimit 4#8) ∧
  decode .host [0x03#8, 0xFF#8] = .ok (.setIntensity 255#8) ∧
  decode .host [0x01#8, 0x08#8, 0x00#8] = .ok (.configure 8#8 0#8) ∧
  decode .host [0x05#8] = .ok .enterShutdown ∧
  decode (.device 1) [0x04#8, 0x5F#8] = .ok (.digit3 1 0x5F#8) ∧
  decode (.device 0) [0x0F#8, 0x01#8] = .ok (.displayTest 0 0x01#8)

/-- A request is well formed exactly when its opcode is assigned, its length is the one the opcode (and `cnt`) requires, and
every `reg` operand of WRITE_ONE, WRITE_SAME and WRITE_ALL is one of the fourteen addresses (R68, R72, R73). -/
def Obligations.RequestWellFormedExactly : Prop :=
  (∀ i, decode .host [] ≠ .ok i) ∧
  ∀ (op : Byte) (operands : List Byte),
    (∃ i, decode .host (op :: operands) = .ok i) ↔
      requestLength op operands = some (operands.length + 1) ∧
      (op = 0x09#8 → ∀ r, operands[1]? = some r → (DevReg.ofAddress r).isSome = true) ∧
      (op = 0x0B#8 → ∀ r, operands[0]? = some r → (DevReg.ofAddress r).isSome = true) ∧
      (op = 0x0A#8 → ∀ j r, operands[1 + 2 * j]? = some r → (DevReg.ofAddress r).isSome = true)

/-! Reset and construction -/

/-- Construction leaves the FRAMER as R25 says, for every length it accepts and from every state; so is the first instance
on a chain, and so is `State.reset`, whose length is the model's choice (log 1). `FB` is unspecified and nothing is said
of it. -/
def Obligations.ConstructionLeavesFramerIdle : Prop :=
  (∀ (n : Nat) (s t : State), construct n s = .next t →
    t.len = n ∧ t.stb = .high ∧ t.busy = false ∧ t.status = .ok ∧ t.plan = [] ∧ t.q = 0 ∧ t.k = 0) ∧
  (∀ n : Nat, (State.powerUp n).len = n ∧ (State.powerUp n).stb = .high ∧ (State.powerUp n).busy = false ∧
    (State.powerUp n).status = .ok ∧ (State.powerUp n).plan = [] ∧ (State.powerUp n).q = 0 ∧ (State.powerUp n).k = 0) ∧
  ∃ n, 1 ≤ n ∧ n ≤ 8 ∧ State.reset = State.powerUp n

/-- Construction with a length outside 1..8 gives no instance and is reported as InvalidConfiguration; with a length in
1..8 it gives one (R114). That it does so while a request is in flight too is the model's choice (log 9: R115 lets a
model take the step only when `BUSY = 0`), and so is that the trace goes on across it (R113, log 18). -/
def Obligations.ConstructionAcceptsOneToEight : Prop :=
  ∀ (n : Nat) (s : State) (rest : List HostMove), s.host = .reset n :: rest →
    ((1 ≤ n ∧ n ≤ 8) → ∃ t, step s = .next t ∧ t.len = n ∧ t.trace = s.trace) ∧
    (¬ (1 ≤ n ∧ n ≤ 8) → step s = .refused (.invalidConfiguration n))

/-- Construction over an idle instance of the same length emits no event and leaves every device register as it was (R113).
That the trace goes on across it (log 18), that the shift path keeps its bytes (log 23) and that the moves of the agents
stay (log 5) is the model's reading, not the rule's. -/
def Obligations.ConstructionSendsNothing : Prop :=
  ∀ s t : State, s.Inv → s.busy = false → construct s.len s = .next t →
    t.trace = s.trace ∧ t.shifted = s.shifted ∧ t.host = s.host ∧ ∀ a, t.mem.read a = s.mem.read a

/-- A construction while a request is in flight leaves no device register with a value: the second of the two models R115
offers (log 9). -/
def Obligations.ResetInMidRequestForgetsChain : Prop :=
  ∀ (n : Nat) (s : State) (rest : List HostMove), s.host = .reset n :: rest → s.busy = true → 1 ≤ n → n ≤ 8 →
    ∃ t, step s = .next t ∧ ∀ a, t.mem.read a = none

/-! The invariant -/

/-- The invariant holds of a machine just constructed, for every chain length, and of `State.reset`. -/
def Obligations.ResetMeetsInvariant : Prop :=
  (∀ n : Nat, 1 ≤ n → n ≤ 8 → (State.powerUp n).Inv) ∧ State.reset.Inv

/-- Every step keeps the invariant: the chain length legal, the register space canonical and inside the address space, R23
(a), (b) and (d), the frame buffer and the shift path in agreement with the sequencer. It holds for every HOST, resets
and rash requests included. -/
def Obligations.StepKeepsInvariant : Prop :=
  ∀ s t : State, s.Inv → step s = .next t → t.Inv

/-- Every step but a construction keeps the trace bracketed (R23 c): exactly `2*N` byte events between a strobe-low event
and the next strobe-high event and nothing else, every byte inside such a bracket, responses outside. -/
def Obligations.StepKeepsTraceBracketed : Prop :=
  ∀ s t : State, s.Inv → s.TraceBracketed → s.resetNext = false → step s = .next t → t.TraceBracketed

/-- With a HOST that waits for `BUSY = 0` and does not construct the instance anew, no step faults and none is refused, from every state that meets the invariant:
every rejection is an ordinary result (R105). -/
def Obligations.CourteousHostNeverStops : Prop :=
  ∀ s : State, s.Inv → s.host.all HostMove.courteous = true → ∃ t, step s = .next t

/-! One step -/

/-- When the HOST's next request decodes to `i` and the FRAMER is idle, the step is the execution of `i`, the request
consumed. -/
def Obligations.StepRunsDecodedRequest : Prop :=
  ∀ (s : State) (req : List Byte) (rest : List HostMove) (i : Instr),
    s.host = .request req :: rest → s.busy = false → decode .host req = .ok i →
    step s = exec i { s with host := rest }

/-- At the strobe-high event the step executes, for each position, the instruction that the pair of the shift path decodes
to there, and around them raises the strobe and moves the sequencer on (R40, R63). -/
def Obligations.StrobeHighExecutesPairs : Prop :=
  ∀ s : State, s.Inv → s.busy = true → s.k = 2 * s.len + 1 → s.hostWaits = true →
    ∃ (instrs : List Instr) (t : State), instrs.length = s.len ∧
      (∀ p i, instrs[p]? = some i → ∃ r d, s.shifted[2 * p]? = some r ∧ s.shifted[2 * p + 1]? = some d ∧
        decode (.device p) [r, d] = .ok i) ∧
      execAll instrs s = .next t ∧ step s = .next (advance ((t.setStrobe .high).emit .sh))

/-- The first event of a frame: the strobe falls, the shift path empties, and nothing else changes (R22, R39). -/
def Obligations.SendStrobeLow : Prop :=
  ∀ s : State, s.Inv → s.busy = true → s.k = 0 → s.hostWaits = true →
    step s = .next { s with stb := .low, trace := s.trace ++ [Event.sl], shifted := [], k := 1 }

/-- A byte event: the byte at wire offset `K - 1` of the frame, the register byte of a pair at an even offset and its data
byte at an odd one, is emitted and delivered to the shift path, and nothing else changes but `K` (and the model's draw
counter, log 8) (R22, R31, R39). -/
def Obligations.SendByteInWireOrder : Prop :=
  ∀ (s : State) (c : Pair), s.Inv → s.busy = true → 1 ≤ s.k → s.k ≤ 2 * s.len → s.xferStalled = false →
    s.hostWaits = true → s.current[(s.k - 1) / 2]? = some c →
    let b := if (s.k - 1) % 2 = 0 then c.reg else c.data
    step s = .next { s with
      trace := s.trace ++ [Event.b b], shifted := s.shifted ++ [b], k := s.k + 1, draws := s.draws + 1 }

/-- The last event of a frame: the strobe rises; with another frame in the plan the sequencer goes to its first event and the
frame buffer takes it, and without one the request ends with status OK and the FRAMER is idle (R22). The register space is
that of the frame being sent, latched from position 0 on: the pair at position `p` goes to key `p*256 + r` (R40). The
next state is given in full. -/
def Obligations.SendStrobeHighMovesOn : Prop :=
  ∀ s : State, s.Inv → s.busy = true → s.k = 2 * s.len + 1 → s.hostWaits = true →
    let m := s.mem.latchPairs 0 s.current
    step s = .next (match s.plan[s.q + 1]? with
      | some f => { s with
          mem := m, stb := .high, trace := s.trace ++ [Event.sh], q := s.q + 1, k := 0, fb := loadFrame f s.fb }
      | none => { s with
          mem := m, stb := .high, trace := s.trace ++ [Event.sh, Event.resp .ok], plan := [], q := 0, k := 0,
          busy := false, status := .ok })

/-- The commit: at the strobe-high event every device `p` latches the pair `SHIFTED[2p], SHIFTED[2p+1]`, the no-op changing
nothing, and no step but that one (a construction aside) changes any device register (R40). -/
def Obligations.CommitLatchesEveryDevice : Prop :=
  (∀ s t : State, s.Inv → s.busy = true → s.k = 2 * s.len + 1 → s.hostWaits = true → step s = .next t →
    ∀ (p : Nat) (r d : Byte) (reg : DevReg), p < s.len → s.shifted[2 * p]? = some r → s.shifted[2 * p + 1]? = some d →
      t.deviceRegister p reg = if r = reg.address ∧ reg ≠ .noop then some d else s.deviceRegister p reg) ∧
  (∀ s t : State, s.Inv → ¬ (s.busy = true ∧ s.k = 2 * s.len + 1) → s.resetNext = false → step s = .next t →
    ∀ a, t.mem.read a = s.mem.read a)

/-- A request presented while `BUSY = 1` is the contract violation of R106, whatever its bytes are (log 6). -/
def Obligations.RequestWhileBusyFaults : Prop :=
  ∀ (s : State) (req : List Byte) (rest : List HostMove), s.host = .requestNow req :: rest → s.busy = true →
    step s = .fault .protocolViolation

/-- An idle FRAMER to which no request is presented waits, and nothing changes (the model's choice, log 5: R22 says that no
step is enabled). -/
def Obligations.IdleFramerWaits : Prop :=
  ∀ s : State, s.host = [] → s.busy = false → step s = .next s

/-- If XFER never completes a transfer, the FRAMER stays at its byte step for ever: `BUSY = 1`, `STB = 0`, no response (R107). -/
def Obligations.StalledTransferHangs : Prop :=
  ∀ s : State, s.Inv → s.busy = true → 1 ≤ s.k → s.k ≤ 2 * s.len → s.xferStalled = true → s.hostWaits = true →
    s.stb = .low ∧ ∀ n : Nat, run n s = .next s

/-- The inbound byte of a transfer does not reach the state (R21). -/
def Obligations.InboundByteDiscarded : Prop :=
  ∀ (b x y : Byte) (s : State), s.xfer b x = s.xfer b y

/-! The requests -/

/-- CONFIGURE with a digit count in 1..8 is accepted with its five frames in the fixed order, the zero intensity replaced and
the others clamped, and the frames are delivered (R79). -/
def Obligations.ConfigureSendsFiveFrames : Prop :=
  ∀ (s : State) (dc iv : Byte), s.Ready → 1 ≤ dc.toNat → dc.toNat ≤ 8 →
    let same := fun r d : Byte => (List.replicate s.len ⟨r, d⟩ : Frame)
    let level := if iv.toNat = 0 then Config.intensityDefault else BitVec.ofNat 8 (min iv.toNat 15)
    let fs := [same 0x0F#8 0x00#8, same 0x0B#8 (BitVec.ofNat 8 (dc.toNat - 1)), same 0x0A#8 level, same 0x09#8 0xFF#8,
      same 0x0C#8 0x01#8]
    Accepts (.configure dc iv) s fs ∧ Delivers s fs

/-- What a CONFIGURE that returns OK leaves in every device: the five control registers, and the eight digit registers as they
were (R80). -/
def Obligations.ConfigureSetsControlRegisters : Prop :=
  ∀ (s : State) (dc iv : Byte) (rest : List HostMove), s.Ready → s.host = .request [0x01#8, dc, iv] :: rest →
    1 ≤ dc.toNat → dc.toNat ≤ 8 →
    ∃ t, run (1 + 5 * (2 * s.len + 2)) s = .next t ∧ t.status = .ok ∧ t.busy = false ∧ t.host = rest ∧
      ∀ p, p < s.len →
        t.deviceRegister p .displayTest = some 0x00#8 ∧
        t.deviceRegister p .scanLimit = some (BitVec.ofNat 8 (dc.toNat - 1)) ∧
        t.deviceRegister p .intensity =
          some (if iv.toNat = 0 then Config.intensityDefault else BitVec.ofNat 8 (min iv.toNat 15)) ∧
        t.deviceRegister p .decodeMode = some 0xFF#8 ∧
        t.deviceRegister p .shutdown = some 0x01#8 ∧
        ∀ i, t.deviceRegister p (digitReg i) = s.deviceRegister p (digitReg i)

/-- SET_SCAN_LIMIT `n` writes `(n - 1) mod 256` to the scan-limit register of every device, for every byte `n` (R81). -/
def Obligations.SetScanLimitWritesEveryDevice : Prop :=
  ∀ n : Byte, decode .host [0x02#8, n] = .ok (.setScanLimit n) ∧
    ∀ s : State, s.Ready →
      let d := BitVec.ofNat 8 ((n.toNat + 255) % 256)
      let fs : List Frame := [List.replicate s.len ⟨0x0B#8, d⟩]
      Accepts (.setScanLimit n) s fs ∧ Delivers s fs ∧
      ∀ p reg, p < s.len → (s.transmitAll fs).deviceRegister p reg =
        if reg = .scanLimit then some d else s.deviceRegister p reg

/-- SET_INTENSITY `v` writes `min(v, 0x0F)` to the intensity register of every device, for every byte `v` (R82). -/
def Obligations.SetIntensityWritesEveryDevice : Prop :=
  ∀ v : Byte, decode .host [0x03#8, v] = .ok (.setIntensity v) ∧
    ∀ s : State, s.Ready →
      let d := BitVec.ofNat 8 (min v.toNat 0x0F)
      let fs : List Frame := [List.replicate s.len ⟨0x0A#8, d⟩]
      Accepts (.setIntensity v) s fs ∧ Delivers s fs ∧
      ∀ p reg, p < s.len → (s.transmitAll fs).deviceRegister p reg =
        if reg = .intensity then some d else s.deviceRegister p reg

/-- SET_DECODE_MODE `n` writes the pattern of the table to the decode-mode register of every device, for every byte `n`
(R83). -/
def Obligations.SetDecodeModeWritesEveryDevice : Prop :=
  ∀ n : Byte, decode .host [0x04#8, n] = .ok (.setDecodeMode n) ∧
    ∀ s : State, s.Ready →
      let d : Byte := if n.toNat = 1 then 0x01#8
        else if 2 ≤ n.toNat ∧ n.toNat ≤ 4 then 0x0F#8
        else if n.toNat = 8 then 0xFF#8
        else 0x00#8
      let fs : List Frame := [List.replicate s.len ⟨0x09#8, d⟩]
      Accepts (.setDecodeMode n) s fs ∧ Delivers s fs ∧
      ∀ p reg, p < s.len → (s.transmitAll fs).deviceRegister p reg =
        if reg = .decodeMode then some d else s.deviceRegister p reg

/-- ENTER_SHUTDOWN and EXIT_SHUTDOWN write 0 and 1 to the shutdown register of every device, which puts it in shutdown and in
normal operation, and keep every other register (R84, R85). -/
def Obligations.ShutdownSettersWriteEveryDevice : Prop :=
  decode .host [0x05#8] = .ok .enterShutdown ∧ decode .host [0x06#8] = .ok .exitShutdown ∧
  ∀ s : State, s.Ready →
    let off : List Frame := [List.replicate s.len ⟨0x0C#8, 0x00#8⟩]
    let on : List Frame := [List.replicate s.len ⟨0x0C#8, 0x01#8⟩]
    Accepts .enterShutdown s off ∧ Delivers s off ∧ Accepts .exitShutdown s on ∧ Delivers s on ∧
    ∀ p, p < s.len →
      (s.transmitAll off).powerMode p = some .shutdown ∧ (s.transmitAll on).powerMode p = some .normal ∧
      ∀ reg, reg ≠ .shutdown → (s.transmitAll off).deviceRegister p reg = s.deviceRegister p reg ∧
        (s.transmitAll on).deviceRegister p reg = s.deviceRegister p reg

/-- ENTER_DISPLAY_TEST and EXIT_DISPLAY_TEST write 1 and 0 to the display-test register of every device, which puts it in test
mode and returns it to normal, and keep every other register (R86, R87). -/
def Obligations.DisplayTestSettersWriteEveryDevice : Prop :=
  decode .host [0x07#8] = .ok .enterDisplayTest ∧ decode .host [0x08#8] = .ok .exitDisplayTest ∧
  ∀ s : State, s.Ready →
    let on : List Frame := [List.replicate s.len ⟨0x0F#8, 0x01#8⟩]
    let off : List Frame := [List.replicate s.len ⟨0x0F#8, 0x00#8⟩]
    Accepts .enterDisplayTest s on ∧ Delivers s on ∧ Accepts .exitDisplayTest s off ∧ Delivers s off ∧
    ∀ p, p < s.len →
      (s.transmitAll on).testMode p = some .test ∧ (s.transmitAll off).testMode p = some .normal ∧
      ∀ reg, reg ≠ .displayTest → (s.transmitAll on).deviceRegister p reg = s.deviceRegister p reg ∧
        (s.transmitAll off).deviceRegister p reg = s.deviceRegister p reg

/-- WRITE_ONE with `idx < N` sends the frame that holds its pair at position `idx` and the no-op pair elsewhere, the data
unmodified for every register (R90). -/
def Obligations.WriteOneSendsPaddedFrame : Prop :=
  ∀ (s : State) (idx : Byte) (reg : DevReg) (data : Byte) (f : Frame), s.Ready → idx.toNat < s.len →
    f.length = s.len →
    (∀ p c, f[p]? = some c → c = if p = idx.toNat then ⟨reg.address, data⟩ else ⟨0x00#8, 0x00#8⟩) →
    Accepts (.writeOne idx reg data) s [f] ∧ Delivers s [f]

/-- After WRITE_ONE register `reg` of device `idx` holds `data` (the no-op register stores nothing), and every other register
of every device is unchanged (R90; property T4 of 95_test_vectors.md). -/
def Obligations.WriteOneChangesOneRegister : Prop :=
  ∀ (s : State) (idx : Byte) (reg : DevReg) (data : Byte) (rest : List HostMove), s.Ready → idx.toNat < s.len →
    s.host = .request [0x09#8, idx, reg.address, data] :: rest →
    ∃ t, run (1 + (2 * s.len + 2)) s = .next t ∧ t.status = .ok ∧
      ∀ p reg', p < s.len → t.deviceRegister p reg' =
        if p = idx.toNat ∧ reg' = reg ∧ reg ≠ .noop then some data else s.deviceRegister p reg'

/-- WRITE_ALL with exactly `N` pairs sends them as given, and each device latches its own (R91). -/
def Obligations.WriteAllSendsGivenFrame : Prop :=
  ∀ (s : State) (cmds : List Command), s.Ready → cmds.length = s.len →
    let fs : List Frame := [cmds.map (fun c => ⟨c.reg.address, c.data⟩)]
    Accepts (.writeAll cmds) s fs ∧ Delivers s fs ∧
    ∀ p c reg, cmds[p]? = some c → (s.transmitAll fs).deviceRegister p reg =
      if reg = c.reg ∧ reg ≠ .noop then some c.data else s.deviceRegister p reg

/-- WRITE_SAME sends its pair to every device, the data unmodified (R92). -/
def Obligations.WriteSameSendsSameFrame : Prop :=
  ∀ (s : State) (reg : DevReg) (data : Byte), s.Ready →
    let fs : List Frame := [List.replicate s.len ⟨reg.address, data⟩]
    Accepts (.writeSame reg data) s fs ∧ Delivers s fs ∧
    ∀ p reg', p < s.len → (s.transmitAll fs).deviceRegister p reg' =
      if reg' = reg ∧ reg ≠ .noop then some data else s.deviceRegister p reg'

/-- A request's own step changes nothing but what accepting or rejecting it changes: no device register, no strobe, no
bus event; on acceptance `STATUS` and the trace stay, on rejection `BUSY`, the sequencer and the frame buffer stay, and
the trace gains the response with the rejection's status and nothing else (R22, R102). That the frame-buffer slots beyond
the chain stay on acceptance is the model's choice (log 16: R19 calls their contents unspecified). -/
def Obligations.RequestFrameCondition : Prop :=
  ∀ (i : Instr) (s t : State), i.space = .host → exec i s = .next t →
    t.len = s.len ∧ t.stb = s.stb ∧ t.shifted = s.shifted ∧ t.host = s.host ∧ t.xferStalled = s.xferStalled ∧
    t.draws = s.draws ∧ (∀ a, t.mem.read a = s.mem.read a) ∧
    ((t.busy = true ∧ t.status = s.status ∧ t.trace = s.trace ∧
        ∀ p, s.len ≤ p → t.fb[p]? = s.fb[p]?) ∨
      (t.busy = s.busy ∧ t.plan = s.plan ∧ t.q = s.q ∧ t.k = s.k ∧ t.fb = s.fb ∧
        ∃ c, t.status = .rejected c ∧ t.trace = s.trace ++ [Event.resp (.rejected c)]))

/-- Which request is rejected for which cause, exactly: InvalidConfiguration only by CONFIGURE with a digit count outside 1..8,
InvalidDeviceIndex only by WRITE_ONE with `idx >= N`, FrameLengthMismatch only by WRITE_ALL with `cnt != N`; the
rejection is the state of R102 in full, and no other request is rejected once decoded (R94 to R97, R99). -/
def Obligations.RejectionCausesExact : Prop :=
  ∀ (i : Instr) (s : State) (c : Rejection), s.busy = false →
    (exec i s = .next (s.rejectedWith c) ↔
      (c = .invalidConfiguration ∧ ∃ dc iv, i = .configure dc iv ∧ (dc.toNat < 1 ∨ 8 < dc.toNat)) ∨
      (c = .invalidDeviceIndex ∧ ∃ idx reg data, i = .writeOne idx reg data ∧ s.len ≤ idx.toNat) ∨
      (c = .frameLengthMismatch ∧ ∃ cmds, i = .writeAll cmds ∧ cmds.length ≠ s.len))

/-- What a rejection does, exactly, for every request that `decode_and_check` rejects: one step, `STATUS <- code`, the
response, and nothing else (R102). -/
def Obligations.RejectedRequestOnlyResponds : Prop :=
  ∀ (s : State) (req : List Byte) (rest : List HostMove) (c : Rejection),
    s.host = .request req :: rest → s.busy = false → decodeAndCheck s.len req = .error c →
    step s = .next { s with
      host := rest, status := .rejected c, trace := s.trace ++ [Event.resp (.rejected c)] }

/-- IllegalRequest comes first: a WRITE_ONE with a reserved register is rejected with it whatever the index is, and a WRITE_ALL
of the right length with a reserved register whatever the count is (R101). -/
def Obligations.IllegalRequestComesFirst : Prop :=
  (∀ (n : Nat) (idx r d : Byte), DevReg.ofAddress r = none →
    transaction n [0x09#8, idx, r, d] = (.rejected .illegalRequest, [])) ∧
  (∀ (n : Nat) (cnt : Byte) (pairs : List Byte) (j : Nat) (r : Byte), pairs.length = 2 * cnt.toNat →
    pairs[2 * j]? = some r → DevReg.ofAddress r = none →
    transaction n (0x0A#8 :: cnt :: pairs) = (.rejected .illegalRequest, []))

/-- The expansions of R76 hold for the status and for the whole bus trace. -/
def Obligations.ExpansionsAgree : Prop :=
  ∀ n : Nat, 1 ≤ n → n ≤ 8 →
    let tr := fun i : Instr => transaction n (encode i)
    (∀ m, tr (.setScanLimit m) = tr (.writeSame .scanLimit (m - 1#8))) ∧
    (∀ v : Byte, tr (.setIntensity v) = tr (.writeSame .intensity (BitVec.ofNat 8 (min v.toNat 15)))) ∧
    (∀ m, tr (.setDecodeMode m) = tr (.writeSame .decodeMode (decodePattern m))) ∧
    tr .enterShutdown = tr (.writeSame .shutdown 0x00#8) ∧
    tr .exitShutdown = tr (.writeSame .shutdown 0x01#8) ∧
    tr .enterDisplayTest = tr (.writeSame .displayTest 0x01#8) ∧
    tr .exitDisplayTest = tr (.writeSame .displayTest 0x00#8) ∧
    (∀ r d, tr (.writeSame r d) = tr (.writeAll (List.replicate n ⟨r, d⟩))) ∧
    (∀ (i : Byte) (r : DevReg) (d : Byte), i.toNat < n → tr (.writeOne i r d) =
      tr (.writeAll ((List.range n).map fun p => if p = i.toNat then ⟨r, d⟩ else ⟨.noop, 0x00#8⟩))) ∧
    (∀ dc iv : Byte, 1 ≤ dc.toNat → dc.toNat ≤ 8 →
      let level := if iv = 0#8 then Config.intensityDefault else iv
      tr (.configure dc iv) = (.ok, (tr .exitDisplayTest).2 ++ (tr (.setScanLimit dc)).2 ++ (tr (.setIntensity level)).2 ++
        (tr (.setDecodeMode 8#8)).2 ++ (tr .exitShutdown).2))

/-- A request's status is not OK exactly when it produces no bus event (R102; property T2). -/
def Obligations.NoBusEventIffRejected : Prop :=
  ∀ (n : Nat) (req : List Byte), (transaction n req).1 ≠ .ok ↔ (transaction n req).2 = []

/-- The bus events of any request are 0, 1 or 5 whole frames of exactly `N` pairs with assigned registers, so at most 90 events
(R23 e, R131; property T1). -/
def Obligations.BusTraceIsWholeFrames : Prop :=
  ∀ (n : Nat) (req : List Byte), 1 ≤ n → n ≤ 8 →
    ∃ fs : List Frame, (fs.length = 0 ∨ fs.length = 1 ∨ fs.length = 5) ∧ (∀ f ∈ fs, Frame.wf n f) ∧
      (transaction n req).2 = fs.flatMap frameEvents ∧
      (transaction n req).2.length = fs.length * (2 * n + 2) ∧ (transaction n req).2.length ≤ 90

/-- The event level refines the transaction level: from every ready state, the run of a request takes one step and one more for
each of its bus events, and ends in the state of the atomic transaction; its trace is extended by exactly the
transaction's bus events and its response (R10, R22, R89). -/
def Obligations.EventLevelRefinesTransaction : Prop :=
  ∀ (s : State) (req : List Byte) (rest : List HostMove), s.Ready → s.host = .request req :: rest →
    run (1 + (transaction s.len req).2.length) s = .next (State.transact req { s with host := rest }) ∧
    (State.transact req { s with host := rest }).trace = s.trace ++ requestTrace s.len req ∧
    (State.transact req { s with host := rest }).status = (transaction s.len req).1

/-- Program order is the only order: a HOST's requests are all carried out, and the trace is the concatenation of the traces of
the single requests (R56); afterwards the run is over, idle with the strobe high (R27). -/
def Obligations.ProgramTraceIsConcatenation : Prop :=
  ∀ (program : List (List Byte)) (s : State), s.Ready → s.host = program.map HostMove.request →
    ∃ (k : Nat) (t : State), run k s = .next t ∧ t.host = [] ∧ t.busy = false ∧ t.stb = .high ∧
      t.trace = s.trace ++ program.flatMap (requestTrace s.len)

/-- Every accepted request terminates: from every state in flight with transfers that complete and a HOST that waits, at most 90
steps bring the FRAMER to idle, with an OK response as the last event of the trace (R131). -/
def Obligations.InFlightRequestTerminates : Prop :=
  ∀ s : State, s.Inv → s.busy = true → s.xferStalled = false → s.hostWaits = true →
    ∃ (k : Nat) (t : State), k ≤ s.plan.length * (2 * s.len + 2) ∧ k ≤ 90 ∧ run k s = .next t ∧
      t.busy = false ∧ t.status = .ok ∧ t.trace.getLast? = some (.resp .ok) ∧ t.host = s.host

/-! The pairs -/

/-- NOOP executed by a device of the chain changes nothing, whatever the data byte is (R41). -/
def Obligations.NoopPairChangesNothing : Prop :=
  ∀ (p : Nat) (d : Byte) (s : State), p < s.len → exec (.noop p d) s = .next s

/-- DIGIT0 to DIGIT7 executed by device `p` store the data byte in register 0x01 to 0x08 of that device, key `p*256 + r`, and
change nothing else (R42 to R49). -/
def Obligations.DigitPairsStoreByte : Prop :=
  ∀ (p : Nat) (d : Byte) (s : State), p < s.len →
    exec (.digit0 p d) s = .next { s with mem := s.mem.write (p * 256 + 1) d } ∧
    exec (.digit1 p d) s = .next { s with mem := s.mem.write (p * 256 + 2) d } ∧
    exec (.digit2 p d) s = .next { s with mem := s.mem.write (p * 256 + 3) d } ∧
    exec (.digit3 p d) s = .next { s with mem := s.mem.write (p * 256 + 4) d } ∧
    exec (.digit4 p d) s = .next { s with mem := s.mem.write (p * 256 + 5) d } ∧
    exec (.digit5 p d) s = .next { s with mem := s.mem.write (p * 256 + 6) d } ∧
    exec (.digit6 p d) s = .next { s with mem := s.mem.write (p * 256 + 7) d } ∧
    exec (.digit7 p d) s = .next { s with mem := s.mem.write (p * 256 + 8) d }

/-- DECODE_MODE, INTENSITY, SCAN_LIMIT, SHUTDOWN and DISPLAY_TEST executed by device `p` store the data byte, whatever it is, in
register 0x09, 0x0A, 0x0B, 0x0C and 0x0F of that device, and change nothing else (R50 to R54). -/
def Obligations.ControlPairsStoreByte : Prop :=
  ∀ (p : Nat) (d : Byte) (s : State), p < s.len →
    exec (.decodeMode p d) s = .next { s with mem := s.mem.write (p * 256 + 9) d } ∧
    exec (.intensity p d) s = .next { s with mem := s.mem.write (p * 256 + 10) d } ∧
    exec (.scanLimit p d) s = .next { s with mem := s.mem.write (p * 256 + 11) d } ∧
    exec (.shutdown p d) s = .next { s with mem := s.mem.write (p * 256 + 12) d } ∧
    exec (.displayTest p d) s = .next { s with mem := s.mem.write (p * 256 + 15) d }

/-- The frame of the fourteen pairs: whatever pair device `p` executes, every other key of the register space reads as before, the
key it stores to (`p*256` plus its register byte) reads the data byte unless the pair is a no-op, and no other part of
the state changes (R35, R40, R41). -/
def Obligations.PairFrameCondition : Prop :=
  ∀ (p : Nat) (d : Byte) (reg : DevReg) (s t : State), exec (pairInstr p d reg) s = .next t →
    t = { s with mem := t.mem } ∧
    (∀ a, a ≠ p * 256 + reg.address.toNat → t.mem.read a = s.mem.read a) ∧
    t.mem.read (p * 256 + reg.address.toNat) =
      if reg = .noop then s.mem.read (p * 256 + reg.address.toNat) else some d

/-- A pair at a position `p >= N` has no device (R28): the model faults (log 13). -/
def Obligations.PairBeyondChainFaults : Prop :=
  ∀ (p : Nat) (d : Byte) (reg : DevReg) (s : State), s.len ≤ p → exec (pairInstr p d reg) s = .fault .noSuchDevice

/-- Sending the same frame twice leaves the register space as sending it once, and writes to different registers of one device or
to registers of different devices commute (R38). -/
def Obligations.LatchesIdempotentAndCommuting : Prop :=
  (∀ (m : Memory) (n : Nat) (f : Frame), m.wf → Frame.wf n f →
    (m.latchPairs 0 f).latchPairs 0 f = m.latchPairs 0 f) ∧
  (∀ (m : Memory) (p p' : Nat) (r r' : DevReg) (d d' : Byte), m.wf → ¬ (p = p' ∧ r = r') →
    (m.latch p r d).latch p' r' d' = (m.latch p' r' d').latch p r d)

/-- The two modes are independent and per device: a SHUTDOWN pair sets the power mode of its device by the byte (0 shutdown, 1
normal) and no test mode and no other device's power mode; a DISPLAY_TEST pair the other way round (R53 to R55). -/
def Obligations.ModesIndependentlyToggled : Prop :=
  ∀ (p p' : Nat) (d : Byte) (s t : State),
    (exec (.shutdown p d) s = .next t →
      t.testMode p' = s.testMode p' ∧ (p' ≠ p → t.powerMode p' = s.powerMode p') ∧
      (d = 0#8 → t.powerMode p = some .shutdown) ∧ (d = 1#8 → t.powerMode p = some .normal)) ∧
    (exec (.displayTest p d) s = .next t →
      t.powerMode p' = s.powerMode p' ∧ (p' ≠ p → t.testMode p' = s.testMode p') ∧
      (d = 1#8 → t.testMode p = some .test) ∧ (d = 0#8 → t.testMode p = some .normal))

/-- The wire format of a frame: strobe low, then for each position its register byte at offset `2p` and its data byte at offset
`2p+1`, then strobe high: `2*N` bytes, `2*N + 2` events (R31, R64). -/
def Obligations.FrameWireFormat : Prop :=
  ∀ f : Frame, frameEvents f = [Event.sl] ++ (frameBytes f).map Event.b ++ [Event.sh] ∧
    (frameBytes f).length = 2 * f.length ∧ (frameEvents f).length = 2 * f.length + 2 ∧
    ∀ p c, f[p]? = some c → (frameBytes f)[2 * p]? = some c.reg ∧ (frameBytes f)[2 * p + 1]? = some c.data

/-- The block's arithmetic on bytes (R88 a to d): `n - 1` wraps mod 256, the clamp is `min(v, 15)`, the zero substitution
of CONFIGURE comes before it, and the decode pattern is the table of R83. -/
def Obligations.ByteArithmetic : Prop :=
  ∀ v : Byte, (scanLimitData v).toNat = (v.toNat + 255) % 256 ∧ (clampIntensity v).toNat = min v.toNat 15 ∧
    (v ≠ 0#8 → substituteZero v = v) ∧ substituteZero 0#8 = Config.intensityDefault ∧
    (clampIntensity (substituteZero v)).toNat = min (if v = 0#8 then Config.intensityDefault.toNat else v.toNat) 15 ∧
    decodePattern v = (if v = 1#8 then 0x01#8 else if v = 2#8 ∨ v = 3#8 ∨ v = 4#8 then 0x0F#8
      else if v = 8#8 then 0xFF#8 else 0x00#8)

/-! Two rules where the model chooses what the spec leaves open -/

/-- A construction over an idle instance with ANOTHER length in 1..8 leaves no device register with a value (the model's
choice, log 9: a device is named by its wire position, and the positions of another chain are other chips); the FRAMER is
at its reset values (R25), and nothing else changes (the frame buffer: log 16; the shift path: log 23; the trace: log
18). The next state is given in full. -/
def Obligations.ConstructionWithOtherLengthForgetsChain : Prop :=
  ∀ (n : Nat) (s : State) (rest : List HostMove), s.Inv → s.busy = false → s.host = .reset n :: rest → n ≠ s.len →
    1 ≤ n → n ≤ 8 →
    step s = .next { s with
      host := rest, len := n, stb := .high, busy := false, status := .ok, plan := [], q := 0, k := 0, mem := [] }

/-- What a digit pair makes its digit show, by the DECODE_MODE byte of its device: a 4-bit BCD value when bit `i` is set, the
byte as a segment pattern when it is clear (R42 to R50). With the bit set a byte above 0x0F has no defined value (the
model's choice, log 25), and with DECODE_MODE unwritten the digit has none (log 20). Every other digit of every device
means what it meant before. -/
def Obligations.DigitPairMeaning : Prop :=
  ∀ (p : Nat) (i : Fin 8) (d : Byte) (s t : State), exec (pairInstr p d (digitReg i)) s = .next t →
    (∀ mode, s.deviceRegister p .decodeMode = some mode →
      t.digitMeaning p i =
        if mode.getLsbD i.val = false then some (.segments d)
        else if d.toNat ≤ 15 then some (.bcd (BitVec.ofNat 4 d.toNat))
        else none) ∧
    (s.deviceRegister p .decodeMode = none → t.digitMeaning p i = none) ∧
    ∀ p' j, ¬ (p' = p ∧ j = i) → t.digitMeaning p' j = s.digitMeaning p' j
end

