-- ==== Sys2Proof/Laws/State.lean ====
section
/-! SUPPORT. One lemma per field per named update of the state, true by rfl, so that no later proof unfolds an update. -/

namespace Sys2Proof.Machine

@[simp] theorem State.emit_len (e : Event) (s : State) : (s.emit e).len = s.len := rfl
@[simp] theorem State.emit_stb (e : Event) (s : State) : (s.emit e).stb = s.stb := rfl
@[simp] theorem State.emit_busy (e : Event) (s : State) : (s.emit e).busy = s.busy := rfl
@[simp] theorem State.emit_status (e : Event) (s : State) : (s.emit e).status = s.status := rfl
@[simp] theorem State.emit_plan (e : Event) (s : State) : (s.emit e).plan = s.plan := rfl
@[simp] theorem State.emit_q (e : Event) (s : State) : (s.emit e).q = s.q := rfl
@[simp] theorem State.emit_k (e : Event) (s : State) : (s.emit e).k = s.k := rfl
@[simp] theorem State.emit_fb (e : Event) (s : State) : (s.emit e).fb = s.fb := rfl
@[simp] theorem State.emit_mem (e : Event) (s : State) : (s.emit e).mem = s.mem := rfl
@[simp] theorem State.emit_shifted (e : Event) (s : State) : (s.emit e).shifted = s.shifted := rfl
@[simp] theorem State.emit_host (e : Event) (s : State) : (s.emit e).host = s.host := rfl
@[simp] theorem State.emit_trace (e : Event) (s : State) : (s.emit e).trace = s.trace ++ [e] := rfl
@[simp] theorem State.emit_xferStalled (e : Event) (s : State) : (s.emit e).xferStalled = s.xferStalled := rfl
@[simp] theorem State.emit_draws (e : Event) (s : State) : (s.emit e).draws = s.draws := rfl

@[simp] theorem State.setStrobe_len (l : Level) (s : State) : (s.setStrobe l).len = s.len := rfl
@[simp] theorem State.setStrobe_stb (l : Level) (s : State) : (s.setStrobe l).stb = l := rfl
@[simp] theorem State.setStrobe_busy (l : Level) (s : State) : (s.setStrobe l).busy = s.busy := rfl
@[simp] theorem State.setStrobe_status (l : Level) (s : State) : (s.setStrobe l).status = s.status := rfl
@[simp] theorem State.setStrobe_plan (l : Level) (s : State) : (s.setStrobe l).plan = s.plan := rfl
@[simp] theorem State.setStrobe_q (l : Level) (s : State) : (s.setStrobe l).q = s.q := rfl
@[simp] theorem State.setStrobe_k (l : Level) (s : State) : (s.setStrobe l).k = s.k := rfl
@[simp] theorem State.setStrobe_fb (l : Level) (s : State) : (s.setStrobe l).fb = s.fb := rfl
@[simp] theorem State.setStrobe_mem (l : Level) (s : State) : (s.setStrobe l).mem = s.mem := rfl
@[simp] theorem State.setStrobe_shifted (l : Level) (s : State) : (s.setStrobe l).shifted = s.shifted := rfl
@[simp] theorem State.setStrobe_host (l : Level) (s : State) : (s.setStrobe l).host = s.host := rfl
@[simp] theorem State.setStrobe_trace (l : Level) (s : State) : (s.setStrobe l).trace = s.trace := rfl
@[simp] theorem State.setStrobe_xferStalled (l : Level) (s : State) : (s.setStrobe l).xferStalled = s.xferStalled := rfl
@[simp] theorem State.setStrobe_draws (l : Level) (s : State) : (s.setStrobe l).draws = s.draws := rfl

@[simp] theorem State.respond_len (st : Status) (s : State) : (s.respond st).len = s.len := rfl
@[simp] theorem State.respond_stb (st : Status) (s : State) : (s.respond st).stb = s.stb := rfl
@[simp] theorem State.respond_busy (st : Status) (s : State) : (s.respond st).busy = false := rfl
@[simp] theorem State.respond_status (st : Status) (s : State) : (s.respond st).status = st := rfl
@[simp] theorem State.respond_plan (st : Status) (s : State) : (s.respond st).plan = s.plan := rfl
@[simp] theorem State.respond_q (st : Status) (s : State) : (s.respond st).q = s.q := rfl
@[simp] theorem State.respond_k (st : Status) (s : State) : (s.respond st).k = s.k := rfl
@[simp] theorem State.respond_fb (st : Status) (s : State) : (s.respond st).fb = s.fb := rfl
@[simp] theorem State.respond_mem (st : Status) (s : State) : (s.respond st).mem = s.mem := rfl
@[simp] theorem State.respond_shifted (st : Status) (s : State) : (s.respond st).shifted = s.shifted := rfl
@[simp] theorem State.respond_host (st : Status) (s : State) : (s.respond st).host = s.host := rfl
@[simp] theorem State.respond_trace (st : Status) (s : State) : (s.respond st).trace = s.trace ++ [Event.resp st] := rfl
@[simp] theorem State.respond_xferStalled (st : Status) (s : State) : (s.respond st).xferStalled = s.xferStalled := rfl
@[simp] theorem State.respond_draws (st : Status) (s : State) : (s.respond st).draws = s.draws := rfl

@[simp] theorem State.xfer_len (b inb : Byte) (s : State) : (s.xfer b inb).len = s.len := rfl
@[simp] theorem State.xfer_stb (b inb : Byte) (s : State) : (s.xfer b inb).stb = s.stb := rfl
@[simp] theorem State.xfer_busy (b inb : Byte) (s : State) : (s.xfer b inb).busy = s.busy := rfl
@[simp] theorem State.xfer_status (b inb : Byte) (s : State) : (s.xfer b inb).status = s.status := rfl
@[simp] theorem State.xfer_plan (b inb : Byte) (s : State) : (s.xfer b inb).plan = s.plan := rfl
@[simp] theorem State.xfer_q (b inb : Byte) (s : State) : (s.xfer b inb).q = s.q := rfl
@[simp] theorem State.xfer_k (b inb : Byte) (s : State) : (s.xfer b inb).k = s.k := rfl
@[simp] theorem State.xfer_fb (b inb : Byte) (s : State) : (s.xfer b inb).fb = s.fb := rfl
@[simp] theorem State.xfer_mem (b inb : Byte) (s : State) : (s.xfer b inb).mem = s.mem := rfl
@[simp] theorem State.xfer_shifted (b inb : Byte) (s : State) : (s.xfer b inb).shifted = s.shifted ++ [b] := rfl
@[simp] theorem State.xfer_host (b inb : Byte) (s : State) : (s.xfer b inb).host = s.host := rfl
@[simp] theorem State.xfer_trace (b inb : Byte) (s : State) : (s.xfer b inb).trace = s.trace ++ [Event.b b] := rfl
@[simp] theorem State.xfer_xferStalled (b inb : Byte) (s : State) : (s.xfer b inb).xferStalled = s.xferStalled := rfl
@[simp] theorem State.xfer_draws (b inb : Byte) (s : State) : (s.xfer b inb).draws = s.draws + 1 := rfl

@[simp] theorem State.reject_len (c : Rejection) (s : State) : (s.reject c).len = s.len := rfl
@[simp] theorem State.reject_stb (c : Rejection) (s : State) : (s.reject c).stb = s.stb := rfl
@[simp] theorem State.reject_busy (c : Rejection) (s : State) : (s.reject c).busy = s.busy := rfl
@[simp] theorem State.reject_status (c : Rejection) (s : State) : (s.reject c).status = .rejected c := rfl
@[simp] theorem State.reject_plan (c : Rejection) (s : State) : (s.reject c).plan = s.plan := rfl
@[simp] theorem State.reject_q (c : Rejection) (s : State) : (s.reject c).q = s.q := rfl
@[simp] theorem State.reject_k (c : Rejection) (s : State) : (s.reject c).k = s.k := rfl
@[simp] theorem State.reject_fb (c : Rejection) (s : State) : (s.reject c).fb = s.fb := rfl
@[simp] theorem State.reject_mem (c : Rejection) (s : State) : (s.reject c).mem = s.mem := rfl
@[simp] theorem State.reject_shifted (c : Rejection) (s : State) : (s.reject c).shifted = s.shifted := rfl
@[simp] theorem State.reject_host (c : Rejection) (s : State) : (s.reject c).host = s.host := rfl
@[simp] theorem State.reject_trace (c : Rejection) (s : State) : (s.reject c).trace = s.trace ++ [Event.resp (.rejected c)] := rfl
@[simp] theorem State.reject_xferStalled (c : Rejection) (s : State) : (s.reject c).xferStalled = s.xferStalled := rfl
@[simp] theorem State.reject_draws (c : Rejection) (s : State) : (s.reject c).draws = s.draws := rfl

@[simp] theorem State.loadPlan_len (fs : List Frame) (s : State) : (s.loadPlan fs).len = s.len := rfl
@[simp] theorem State.loadPlan_stb (fs : List Frame) (s : State) : (s.loadPlan fs).stb = s.stb := rfl
@[simp] theorem State.loadPlan_busy (fs : List Frame) (s : State) : (s.loadPlan fs).busy = true := rfl
@[simp] theorem State.loadPlan_status (fs : List Frame) (s : State) : (s.loadPlan fs).status = s.status := rfl
@[simp] theorem State.loadPlan_plan (fs : List Frame) (s : State) : (s.loadPlan fs).plan = fs := rfl
@[simp] theorem State.loadPlan_q (fs : List Frame) (s : State) : (s.loadPlan fs).q = 0 := rfl
@[simp] theorem State.loadPlan_k (fs : List Frame) (s : State) : (s.loadPlan fs).k = 0 := rfl
@[simp] theorem State.loadPlan_fb (fs : List Frame) (s : State) : (s.loadPlan fs).fb = loadFrame (fs.head?.getD []) s.fb := rfl
@[simp] theorem State.loadPlan_mem (fs : List Frame) (s : State) : (s.loadPlan fs).mem = s.mem := rfl
@[simp] theorem State.loadPlan_shifted (fs : List Frame) (s : State) : (s.loadPlan fs).shifted = s.shifted := rfl
@[simp] theorem State.loadPlan_host (fs : List Frame) (s : State) : (s.loadPlan fs).host = s.host := rfl
@[simp] theorem State.loadPlan_trace (fs : List Frame) (s : State) : (s.loadPlan fs).trace = s.trace := rfl
@[simp] theorem State.loadPlan_xferStalled (fs : List Frame) (s : State) : (s.loadPlan fs).xferStalled = s.xferStalled := rfl
@[simp] theorem State.loadPlan_draws (fs : List Frame) (s : State) : (s.loadPlan fs).draws = s.draws := rfl

@[simp] theorem State.forgetDevice_len (p : Nat) (s : State) : (s.forgetDevice p).len = s.len := rfl
@[simp] theorem State.forgetDevice_stb (p : Nat) (s : State) : (s.forgetDevice p).stb = s.stb := rfl
@[simp] theorem State.forgetDevice_busy (p : Nat) (s : State) : (s.forgetDevice p).busy = s.busy := rfl
@[simp] theorem State.forgetDevice_status (p : Nat) (s : State) : (s.forgetDevice p).status = s.status := rfl
@[simp] theorem State.forgetDevice_plan (p : Nat) (s : State) : (s.forgetDevice p).plan = s.plan := rfl
@[simp] theorem State.forgetDevice_q (p : Nat) (s : State) : (s.forgetDevice p).q = s.q := rfl
@[simp] theorem State.forgetDevice_k (p : Nat) (s : State) : (s.forgetDevice p).k = s.k := rfl
@[simp] theorem State.forgetDevice_fb (p : Nat) (s : State) : (s.forgetDevice p).fb = s.fb := rfl
@[simp] theorem State.forgetDevice_mem (p : Nat) (s : State) : (s.forgetDevice p).mem = s.mem.forgetDevice p := rfl
@[simp] theorem State.forgetDevice_shifted (p : Nat) (s : State) : (s.forgetDevice p).shifted = s.shifted := rfl
@[simp] theorem State.forgetDevice_host (p : Nat) (s : State) : (s.forgetDevice p).host = s.host := rfl
@[simp] theorem State.forgetDevice_trace (p : Nat) (s : State) : (s.forgetDevice p).trace = s.trace := rfl
@[simp] theorem State.forgetDevice_xferStalled (p : Nat) (s : State) : (s.forgetDevice p).xferStalled = s.xferStalled := rfl
@[simp] theorem State.forgetDevice_draws (p : Nat) (s : State) : (s.forgetDevice p).draws = s.draws := rfl

@[simp] theorem State.transmit_len (f : Frame) (s : State) : (s.transmit f).len = s.len := rfl
@[simp] theorem State.transmit_stb (f : Frame) (s : State) : (s.transmit f).stb = .high := rfl
@[simp] theorem State.transmit_busy (f : Frame) (s : State) : (s.transmit f).busy = s.busy := rfl
@[simp] theorem State.transmit_status (f : Frame) (s : State) : (s.transmit f).status = s.status := rfl
@[simp] theorem State.transmit_plan (f : Frame) (s : State) : (s.transmit f).plan = s.plan := rfl
@[simp] theorem State.transmit_q (f : Frame) (s : State) : (s.transmit f).q = s.q := rfl
@[simp] theorem State.transmit_k (f : Frame) (s : State) : (s.transmit f).k = s.k := rfl
@[simp] theorem State.transmit_fb (f : Frame) (s : State) : (s.transmit f).fb = loadFrame f s.fb := rfl
@[simp] theorem State.transmit_mem (f : Frame) (s : State) : (s.transmit f).mem = s.mem.latchPairs 0 f := rfl
@[simp] theorem State.transmit_shifted (f : Frame) (s : State) : (s.transmit f).shifted = frameBytes f := rfl
@[simp] theorem State.transmit_host (f : Frame) (s : State) : (s.transmit f).host = s.host := rfl
@[simp] theorem State.transmit_trace (f : Frame) (s : State) : (s.transmit f).trace = s.trace ++ frameEvents f := rfl
@[simp] theorem State.transmit_xferStalled (f : Frame) (s : State) : (s.transmit f).xferStalled = s.xferStalled := rfl
@[simp] theorem State.transmit_draws (f : Frame) (s : State) : (s.transmit f).draws = s.draws + 2 * f.length := rfl

end Sys2Proof.Machine
end

