-- ==== Sys2Proof/Laws/Memory.lean ====
section
/-! SUPPORT. The laws of the device register space: read after write, the canonical form is kept by every operation, and
what a latch does to one register. -/

namespace Sys2Proof.Machine

@[simp] theorem Memory.read_nil (a : Nat) : Memory.read [] a = none := rfl

theorem Memory.read_cons (c : Host.Cell) (m : Memory) (a : Nat) :
    Memory.read (c :: m) a = if c.1 = a then some c.2 else Memory.read m a := rfl

/-- A key below every listed key has no value. -/
theorem Memory.read_below {m : Memory} {a : Nat} (h : ∀ c ∈ m, a < c.1) : m.read a = none := by
  induction m with
  | nil => rfl
  | cons c m ih =>
    have hc := h c (by simp)
    rw [Memory.read_cons, if_neg (by omega)]
    exact ih fun x hx => h x (List.mem_cons_of_mem c hx)

/-- A key with no entry has no value. -/
theorem Memory.read_absent {m : Memory} {a : Nat} (h : ∀ c ∈ m, c.1 ≠ a) : m.read a = none := by
  induction m with
  | nil => rfl
  | cons c m ih =>
    rw [Memory.read_cons, if_neg (h c (by simp))]
    exact ih fun x hx => h x (List.mem_cons_of_mem c hx)

@[simp] theorem Memory.read_write_same (m : Memory) (a : Nat) (v : Byte) : (m.write a v).read a = some v := by
  induction m with
  | nil => simp [Memory.write, Memory.read]
  | cons c m ih =>
    simp only [Memory.write]
    split
    · simp [Memory.read]
    · split
      · simp [Memory.read]
      · rename_i h1 h2
        rw [Memory.read_cons, if_neg (by omega), ih]

theorem Memory.read_write_other (m : Memory) {a b : Nat} (v : Byte) (hab : b ≠ a) :
    (m.write a v).read b = m.read b := by
  induction m with
  | nil => simp [Memory.write, Memory.read, Ne.symm hab]
  | cons c m ih =>
    simp only [Memory.write]
    split
    · simp [Memory.read, Ne.symm hab]
    · split
      · rename_i h1 h2
        simp [Memory.read, Ne.symm hab, ← h2]
      · simp [Memory.read, ih]

theorem Memory.mem_write {m : Memory} {a : Nat} {v : Byte} {x : Host.Cell} (h : x ∈ m.write a v) :
    x = (a, v) ∨ x ∈ m := by
  induction m with
  | nil => simpa [Memory.write] using h
  | cons c m ih =>
    simp only [Memory.write] at h
    split at h
    · simpa using h
    · split at h
      · rcases List.mem_cons.mp h with h | h
        · exact .inl h
        · exact .inr (List.mem_cons_of_mem c h)
      · rcases List.mem_cons.mp h with h | h
        · exact .inr (by simp [h])
        · exact (ih h).imp id (List.mem_cons_of_mem c)

/-- A write keeps the canonical form. -/
theorem Memory.wf_write {m : Memory} (h : m.wf) (a : Nat) (v : Byte) : (m.write a v).wf := by
  induction m with
  | nil => simp [Memory.write, Memory.wf]
  | cons c m ih =>
    have hc := List.pairwise_cons.mp h
    simp only [Memory.write]
    split
    · rename_i hlt
      refine List.pairwise_cons.mpr ⟨fun x hx => ?_, h⟩
      rcases List.mem_cons.mp hx with rfl | hx
      · exact hlt
      · exact Nat.lt_trans hlt (hc.1 x hx)
    · split
      · rename_i _ heq
        exact List.pairwise_cons.mpr ⟨fun x hx => by simpa [heq] using hc.1 x hx, hc.2⟩
      · rename_i h1 h2
        refine List.pairwise_cons.mpr ⟨fun x hx => ?_, ih hc.2⟩
        rcases Memory.mem_write hx with rfl | hx
        · simp only; omega
        · exact hc.1 x hx

/-- Forgetting a device keeps the canonical form. -/
theorem Memory.wf_forgetDevice {m : Memory} (h : m.wf) (p : Nat) : (m.forgetDevice p).wf :=
  List.Pairwise.sublist List.filter_sublist h

/-- A latch keeps the canonical form. -/
theorem Memory.wf_latch {m : Memory} (h : m.wf) (p : Nat) (reg : DevReg) (d : Byte) : (m.latch p reg d).wf := by
  cases reg <;> first | exact h | exact Memory.wf_write h _ _

/-- The memory of a machine just constructed has the canonical form. -/
theorem reset_mem_wf : State.reset.mem.wf := List.Pairwise.nil

/-- Two keys agree exactly when device and register byte agree (log 21). -/
theorem devAddr_inj {p p' : Nat} {r r' : Byte} : devAddr p r = devAddr p' r' ↔ p = p' ∧ r = r' := by
  have := r.isLt
  have := r'.isLt
  unfold devAddr
  constructor
  · intro h
    exact ⟨by omega, BitVec.eq_of_toNat_eq (by omega)⟩
  · rintro ⟨rfl, rfl⟩
    rfl

theorem DevReg.address_inj {a b : DevReg} : a.address = b.address ↔ a = b := by
  cases a <;> cases b <;> decide

@[simp] theorem DevReg.ofAddress_address (a : DevReg) : DevReg.ofAddress a.address = some a := by
  cases a <;> rfl

/-- What a latch does to one register: the addressed register takes the byte, unless it is the no-op; every other keeps
its contents (R40 to R54). -/
theorem Memory.read_latch (m : Memory) (p p' : Nat) (reg reg' : DevReg) (d : Byte) :
    (m.latch p reg d).read (devAddr p' reg'.address) =
      if p' = p ∧ reg' = reg ∧ reg ≠ .noop then some d else m.read (devAddr p' reg'.address) := by
  by_cases hn : reg = .noop
  · subst hn
    simp [Memory.latch]
  · have hw : m.latch p reg d = m.write (devAddr p reg.address) d := by
      cases reg <;> first | rfl | exact absurd rfl hn
    rw [hw]
    by_cases h : p' = p ∧ reg' = reg
    · obtain ⟨rfl, rfl⟩ := h
      simp [hn]
    · rw [Memory.read_write_other, if_neg (by tauto)]
      rw [Ne, devAddr_inj, DevReg.address_inj]
      exact h

/-- Two memories in canonical form that read alike at every key are the same memory. -/
theorem Memory.ext {m m' : Memory} (h : m.wf) (h' : m'.wf) (he : ∀ a, m.read a = m'.read a) : m = m' := by
  induction m generalizing m' with
  | nil =>
    cases m' with
    | nil => rfl
    | cons c m' => have := he c.1; simp [Memory.read] at this
  | cons c m ih =>
    cases m' with
    | nil => have := he c.1; simp [Memory.read] at this
    | cons c' m' =>
      have hc := List.pairwise_cons.mp h
      have hc' := List.pairwise_cons.mp h'
      have key : c.1 = c'.1 := by
        rcases Nat.lt_trichotomy c.1 c'.1 with hlt | heq | hlt
        · have := he c.1
          rw [Memory.read_cons, if_pos rfl, Memory.read_cons, if_neg (by omega), Memory.read_below (fun x hx => Nat.lt_trans hlt (hc'.1 x hx))] at this
          cases this
        · exact heq
        · have := he c'.1
          rw [Memory.read_cons, if_neg (by omega), Memory.read_cons, if_pos rfl, Memory.read_below (fun x hx => Nat.lt_trans hlt (hc.1 x hx))] at this
          cases this
      have hv : c.2 = c'.2 := by
        have := he c.1
        rw [Memory.read_cons, if_pos rfl, Memory.read_cons, if_pos key.symm] at this; simpa using this
      have hcc : c = c' := Prod.ext key hv
      subst hcc
      congr 1
      refine ih hc.2 hc'.2 (fun a => ?_)
      by_cases ha : c.1 = a
      · subst ha; rw [Memory.read_below hc.1, Memory.read_below hc'.1]
      · have := he a; rwa [Memory.read_cons, if_neg ha, Memory.read_cons, if_neg ha] at this

/-- A construction keeps the canonical form (R113, R115). -/
theorem construct_mem_wf {n : Nat} {s t : State} (hs : s.mem.wf) (h : construct n s = .next t) : t.mem.wf := by
  unfold construct at h
  split at h
  · cases h
    show Memory.wf (if _ then _ else _)
    split
    · exact hs
    · exact List.Pairwise.nil
  · cases h

end Sys2Proof.Machine
end

