-- ==== Sys2Proof/Laws/Ops.lean ====
section
/-! SUPPORT. One specification lemma per shared operation: what a request's meaning and a pair's meaning are, what `submit`,
`latchRegister` and the commit can do, and how frames, bytes and the frame buffer fit together. Later proofs cite these
instead of unfolding the operations. -/

namespace Sys2Proof.Machine

/-! The dispatch -/

/-- Every request is its frames submitted (R22, R89). -/
theorem exec_host {i : Instr} (h : i.space = .host) (s : State) : exec i s = submit (frames s.len i) s := by
  cases i <;> first | rfl | simp [Instr.space] at h

/-- Every pair is a latch of its register (R40). -/
theorem exec_pairInstr (p : Nat) (d : Byte) (reg : DevReg) (s : State) :
    exec (pairInstr p d reg) s = latchRegister p reg d s := by
  cases reg <;> rfl

@[simp] theorem space_pairInstr (p : Nat) (d : Byte) (reg : DevReg) : (pairInstr p d reg).space = .device p := by
  cases reg <;> rfl

/-- An instruction of a device is a pair. -/
theorem eq_pairInstr_of_space {i : Instr} {p : Nat} (h : i.space = .device p) : ∃ d reg, i = pairInstr p d reg := by
  cases i <;> simp only [Instr.space, Space.device.injEq, reduceCtorEq] at h <;> subst h
  · exact ⟨_, .noop, rfl⟩
  · exact ⟨_, .digit0, rfl⟩
  · exact ⟨_, .digit1, rfl⟩
  · exact ⟨_, .digit2, rfl⟩
  · exact ⟨_, .digit3, rfl⟩
  · exact ⟨_, .digit4, rfl⟩
  · exact ⟨_, .digit5, rfl⟩
  · exact ⟨_, .digit6, rfl⟩
  · exact ⟨_, .digit7, rfl⟩
  · exact ⟨_, .decodeMode, rfl⟩
  · exact ⟨_, .intensity, rfl⟩
  · exact ⟨_, .scanLimit, rfl⟩
  · exact ⟨_, .shutdown, rfl⟩
  · exact ⟨_, .displayTest, rfl⟩

/-! The shared operations -/

/-- `submit` answers a next state only when idle, and then it rejects or loads the plan (R22). -/
theorem submit_next {c : Except Rejection (List Frame)} {s t : State} (h : submit c s = .next t) :
    s.busy = false ∧ ((∃ r, c = .error r ∧ t = s.reject r) ∨ ∃ fs, c = .ok fs ∧ t = s.loadPlan fs) := by
  unfold submit at h
  split at h
  · cases h
  · rename_i hb
    refine ⟨by simpa using hb, ?_⟩
    cases c with
    | error r => exact .inl ⟨r, rfl, by simpa using h.symm⟩
    | ok fs => exact .inr ⟨fs, rfl, by simpa using h.symm⟩

@[simp] theorem submit_busy {c : Except Rejection (List Frame)} {s : State} (h : s.busy = true) :
    submit c s = .fault .protocolViolation := by simp [submit, h]

theorem submit_ok {fs : List Frame} {s : State} (h : s.busy = false) : submit (.ok fs) s = .next (s.loadPlan fs) := by
  simp [submit, h]

theorem submit_error {r : Rejection} {s : State} (h : s.busy = false) : submit (.error r) s = .next (s.reject r) := by
  simp [submit, h]

theorem latchRegister_inside {p : Nat} {s : State} (h : p < s.len) (reg : DevReg) (d : Byte) :
    latchRegister p reg d s = .next { s with mem := s.mem.latch p reg d } := if_pos h

theorem latchRegister_outside {p : Nat} {s : State} (h : s.len ≤ p) (reg : DevReg) (d : Byte) :
    latchRegister p reg d s = .fault .noSuchDevice := if_neg (by omega)

/-- A pair that answers a next state was executed by a device of the chain, and changed the register space only. -/
theorem exec_pair_next {p : Nat} {d : Byte} {reg : DevReg} {s t : State} (h : exec (pairInstr p d reg) s = .next t) :
    p < s.len ∧ t = { s with mem := s.mem.latch p reg d } := by
  rw [exec_pairInstr, latchRegister] at h
  split at h
  · exact ⟨‹_›, by simpa using h.symm⟩
  · cases h

/-! Decoding -/

theorem DevReg.address_of_ofAddress {b : Byte} {reg : DevReg} (h : DevReg.ofAddress b = some reg) : reg.address = b := by
  unfold DevReg.ofAddress at h
  split at h <;> first | (cases h; apply BitVec.eq_of_toNat_eq; simp_all [DevReg.address]) | cases h

/-- What a device decodes a pair to (R63). -/
theorem decode_device {p : Nat} {r d : Byte} {reg : DevReg} (hp : p < 8) (hr : DevReg.ofAddress r = some reg) :
    decode (.device p) [r, d] = .ok (pairInstr p d reg) := by
  simp [decode, decodePair, hp, hr]

theorem decode_device_ok {p : Nat} {bytes : List Byte} {i : Instr} (h : decode (.device p) bytes = .ok i) :
    ∃ r d reg, bytes = [r, d] ∧ p < 8 ∧ DevReg.ofAddress r = some reg ∧ i = pairInstr p d reg := by
  change decodePair p bytes = _ at h
  unfold decodePair at h
  split at h
  · split at h
    · split at h
      · cases h
      · exact ⟨_, _, _, rfl, ‹_›, ‹_›, by simpa using h.symm⟩
    · cases h
  · cases h

/-- What the FRAMER decodes is a request. -/
theorem decode_host_space {bytes : List Byte} {i : Instr} (h : decode .host bytes = .ok i) : i.space = .host := by
  change decodeRequest bytes = _ at h
  unfold decodeRequest at h
  split at h
  · cases h
  · split at h <;>
    (try simp only [decodeConfigure, decodeRQ1, decodeRQ0, decodeWriteOne, decodeWriteAll, decodeWriteSame] at h) <;>
    (repeat' split at h) <;> first | (cases h; done) | (cases h; rfl)

/-! Frames -/

@[simp] theorem frameBytes_nil : frameBytes [] = [] := rfl

@[simp] theorem frameBytes_cons (c : Pair) (f : Frame) : frameBytes (c :: f) = c.reg :: c.data :: frameBytes f := rfl

@[simp] theorem frameBytes_length (f : Frame) : (frameBytes f).length = 2 * f.length := by
  induction f with
  | nil => rfl
  | cons c f ih => simp [ih]; omega

theorem frameEvents_length (f : Frame) : (frameEvents f).length = 2 * f.length + 2 := by
  simp [frameEvents]

/-- The byte at wire offset `j` is the `j`-th byte of the frame in wire order (R31). -/
theorem wireByte_eq (f : Frame) (j : Nat) : wireByte f j = (frameBytes f)[j]? := by
  induction f generalizing j with
  | nil => simp [wireByte]
  | cons c f ih =>
    match j with
    | 0 => simp [wireByte]
    | 1 => simp [wireByte]
    | j + 2 =>
      have h1 : (j + 2) / 2 = j / 2 + 1 := by omega
      have h2 : (j + 2) % 2 = j % 2 := by omega
      rw [frameBytes_cons, List.getElem?_cons_succ, List.getElem?_cons_succ, ← ih]
      simp only [wireByte, h1, h2, List.getElem?_cons_succ]

/-- Loading a frame puts it in the first slots of the frame buffer (R19). -/
theorem loadFrame_take {f : Frame} (h : f.length ≤ 8) (fb : Vector Pair 8) : (loadFrame f fb).toList.take f.length = f := by
  apply List.ext_getElem
  · simp [h]
  · intro i h1 h2
    have : i < 8 := by omega
    simp [loadFrame, h2]

/-- The slots beyond the frame keep their contents (R19). -/
theorem loadFrame_beyond {f : Frame} {fb : Vector Pair 8} {p : Nat} (h : f.length ≤ p) :
    (loadFrame f fb)[p]? = fb[p]? := by
  by_cases h8 : p < 8
  · simp [loadFrame, h8, List.getElem?_eq_none h]
  · rw [Vector.getElem?_eq_none (by omega), Vector.getElem?_eq_none (by omega)]

theorem commandPair_assigned (c : Command) : (DevReg.ofAddress (commandPair c).reg).isSome = true := by
  simp [commandPair]

theorem sameFrame_wf (n : Nat) (c : Command) : Frame.wf n (sameFrame n c) := by
  refine ⟨by simp [sameFrame], fun x hx => ?_⟩
  rw [(List.mem_replicate.mp hx).2]
  exact commandPair_assigned c

theorem oneFrame_wf (n i : Nat) (c : Command) : Frame.wf n (oneFrame n i c) := by
  refine ⟨by simp [oneFrame], fun x hx => ?_⟩
  obtain ⟨p, -, rfl⟩ := List.mem_map.mp hx
  split
  · exact commandPair_assigned c
  · decide

/-- A request that passes its checks sends 1 or 5 whole frames with assigned registers (R23 b, d; R34). -/
theorem frames_wf {n : Nat} {i : Instr} {fs : List Frame} (h : frames n i = .ok fs) :
    (fs.length = 1 ∨ fs.length = 5) ∧ ∀ f ∈ fs, Frame.wf n f := by
  cases i <;>
    simp only [frames, framesConfigure, framesSetScanLimit, framesSetIntensity, framesSetDecodeMode, framesEnterShutdown,
      framesExitShutdown, framesEnterDisplayTest, framesExitDisplayTest, framesWriteOne, framesWriteAll, framesWriteSame]
      at h <;>
    (try split at h) <;> cases h
  case writeAll.isTrue hl =>
    refine ⟨.inl rfl, fun f hf => ?_⟩
    rw [List.mem_singleton.mp hf]
    refine ⟨by simpa using hl, fun x hx => ?_⟩
    obtain ⟨c, -, rfl⟩ := List.mem_map.mp hx
    exact commandPair_assigned c
  case writeOne.isTrue => exact ⟨.inl rfl, fun f hf => List.mem_singleton.mp hf ▸ oneFrame_wf _ _ _⟩
  case configure.isTrue =>
    refine ⟨.inr rfl, fun f hf => ?_⟩
    simp only [List.mem_cons, List.not_mem_nil, or_false] at hf
    rcases hf with rfl | rfl | rfl | rfl | rfl <;> exact sameFrame_wf _ _
  all_goals exact ⟨.inl rfl, fun f hf => List.mem_singleton.mp hf ▸ sameFrame_wf _ _⟩

theorem decodeAndCheck_wf {n : Nat} {req : List Byte} {fs : List Frame} (h : decodeAndCheck n req = .ok fs) :
    (fs.length = 1 ∨ fs.length = 5) ∧ ∀ f ∈ fs, Frame.wf n f := by
  unfold decodeAndCheck at h
  split at h
  · exact frames_wf h
  · cases h

/-- `accept` is `decode_and_check`, submitted (R22). -/
theorem accept_eq (req : List Byte) (s : State) : accept req s = submit (decodeAndCheck s.len req) s := by
  unfold accept decodeAndCheck
  cases h : decode .host req with
  | ok i => exact exec_host (decode_host_space h) s
  | error e => rfl

/-! The commit -/

/-- The devices from position `p` on latch a whole frame of assigned registers, each its own pair, and nothing but the register
space changes (R40). -/
theorem latchFrom_frameBytes (f : Frame) (p : Nat) (s : State) (h8 : s.len ≤ 8) (hp : p + f.length ≤ s.len)
    (hf : ∀ c ∈ f, (DevReg.ofAddress c.reg).isSome = true) :
    latchFrom p (frameBytes f) s = .next { s with mem := s.mem.latchPairs p f } := by
  induction f generalizing p s with
  | nil => rfl
  | cons c f ih =>
    obtain ⟨reg, hr⟩ := Option.isSome_iff_exists.mp (hf c (by simp))
    have hlt : p < s.len := by simp at hp; omega
    have hpair : latchPair p c.reg c.data s = .next { s with mem := s.mem.latch p reg c.data } := by
      rw [latchPair, decode_device (by omega) hr]
      simp only [exec_pairInstr, latchRegister_inside hlt]
    rw [frameBytes_cons, latchFrom, hpair]
    simp only
    rw [ih (p + 1) { s with mem := s.mem.latch p reg c.data } h8 (by simp at hp ⊢; omega)
      (fun x hx => hf x (List.mem_cons_of_mem c hx))]
    simp [Memory.latchPairs, hr]

/-- The commit of a whole frame (R40). -/
theorem commit_frame {f : Frame} {s : State} (h8 : s.len ≤ 8) (hs : s.stb = .low) (hsh : s.shifted = frameBytes f)
    (hf : Frame.wf s.len f) : commit s = .next { s with mem := s.mem.latchPairs 0 f } := by
  rw [commit, if_pos ⟨hs, by rw [hsh, frameBytes_length, hf.1]⟩]
  conv_lhs => rw [hsh]
  exact latchFrom_frameBytes f 0 s h8 (by rw [hf.1]; omega) hf.2

theorem Memory.latchPairs_nil (m : Memory) (p : Nat) : m.latchPairs p [] = m := rfl

theorem Memory.latchPairs_cons {c : Pair} {reg : DevReg} (hr : DevReg.ofAddress c.reg = some reg) (m : Memory) (p : Nat)
    (f : Frame) : m.latchPairs p (c :: f) = (m.latch p reg c.data).latchPairs (p + 1) f := by
  simp [Memory.latchPairs, hr]

/-- Latching a frame keeps the canonical form. -/
theorem Memory.wf_latchPairs {m : Memory} (h : m.wf) (p : Nat) (f : Frame) : (m.latchPairs p f).wf := by
  induction f generalizing m p with
  | nil => exact h
  | cons c f ih =>
    unfold Memory.latchPairs
    split
    · exact ih (Memory.wf_latch h _ _ _) _
    · exact ih (Memory.wf_forgetDevice h _) _

/-- What latching a frame of assigned registers from position `p` on does to one register: the pair at its device's position
decides, and a device before `p` or beyond the frame keeps its contents (R40). -/
theorem Memory.read_latchPairs (m : Memory) (p : Nat) (f : Frame) (hf : ∀ c ∈ f, (DevReg.ofAddress c.reg).isSome = true)
    (x : Nat) (reg : DevReg) :
    (m.latchPairs p f).read (devAddr x reg.address) =
      if p ≤ x then
        match f[x - p]? with
        | some c => if c.reg = reg.address ∧ reg ≠ .noop then some c.data else m.read (devAddr x reg.address)
        | none => m.read (devAddr x reg.address)
      else m.read (devAddr x reg.address) := by
  induction f generalizing m p with
  | nil => simp [Memory.latchPairs]
  | cons c f ih =>
    obtain ⟨r, hr⟩ := Option.isSome_iff_exists.mp (hf c (by simp))
    have ha : c.reg = reg.address ↔ reg = r := by
      rw [← DevReg.address_of_ofAddress hr, DevReg.address_inj, eq_comm]
    rw [Memory.latchPairs_cons hr, ih _ _ (fun x hx => hf x (List.mem_cons_of_mem c hx)), Memory.read_latch]
    rcases Nat.lt_trichotomy x p with h | h | h
    · rw [if_neg (by omega), if_neg (by omega), if_neg (by omega)]
    · subst h
      rw [if_neg (by omega), if_pos (Nat.le_refl _), Nat.sub_self, List.getElem?_cons_zero]
      simp only [ha, true_and]
      by_cases hreg : reg = r
      · subst hreg; simp
      · simp [hreg]
    · have hx : x - p = (x - (p + 1)) + 1 := by omega
      rw [if_pos (show p + 1 ≤ x by omega), if_pos (show p ≤ x by omega), hx, List.getElem?_cons_succ,
        if_neg (show ¬ (x = p ∧ reg = r ∧ r ≠ .noop) from fun e => by omega)]

end Sys2Proof.Machine
end

