-- ==== Sys2Proof/Laws/PerInstr.lean ====
section
/-! SUPPORT. One lemma per constructor of Instr: the shape of its encoding. -/

namespace Sys2Proof.Laws

theorem encodeCommands_length (cmds : List Command) : (encodeCommands cmds).length = 2 * cmds.length := by
  induction cmds with
  | nil => rfl
  | cons c cmds ih => simp only [encodeCommands, List.length_cons, ih]; omega

namespace EncodingShape

/-- A request starts with the opcode byte of its row and has the length the opcode and `cnt` require (R70, R72); a pair is
the address byte of its row and its data byte (R62, R63). -/
def Statement (i : Instr) : Prop :=
  i.wellFormed = true →
    match i.space with
    | .host => ∃ op operands, encode i = op :: operands ∧ requestLength op operands = some (operands.length + 1)
    | .device _ => ∃ reg d, encode i = [DevReg.address reg, d]

theorem configure (dc iv : Byte) : Statement (.configure dc iv) := fun _ => ⟨_, _, rfl, rfl⟩
theorem setScanLimit (n : Byte) : Statement (.setScanLimit n) := fun _ => ⟨_, _, rfl, rfl⟩
theorem setIntensity (v : Byte) : Statement (.setIntensity v) := fun _ => ⟨_, _, rfl, rfl⟩
theorem setDecodeMode (n : Byte) : Statement (.setDecodeMode n) := fun _ => ⟨_, _, rfl, rfl⟩
theorem enterShutdown : Statement .enterShutdown := fun _ => ⟨_, _, rfl, rfl⟩
theorem exitShutdown : Statement .exitShutdown := fun _ => ⟨_, _, rfl, rfl⟩
theorem enterDisplayTest : Statement .enterDisplayTest := fun _ => ⟨_, _, rfl, rfl⟩
theorem exitDisplayTest : Statement .exitDisplayTest := fun _ => ⟨_, _, rfl, rfl⟩
theorem writeOne (idx : Byte) (reg : DevReg) (data : Byte) : Statement (.writeOne idx reg data) :=
  fun _ => ⟨_, _, rfl, rfl⟩

theorem writeAll (cmds : List Command) : Statement (.writeAll cmds) := by
  intro h
  have hlen : cmds.length < 256 := of_decide_eq_true h
  refine ⟨_, _, rfl, ?_⟩
  simp [requestLength, encodeCommands_length, Nat.mod_eq_of_lt hlen]
  omega

theorem writeSame (reg : DevReg) (data : Byte) : Statement (.writeSame reg data) := fun _ => ⟨_, _, rfl, rfl⟩
theorem noop (p : Nat) (d : Byte) : Statement (.noop p d) := fun _ => ⟨.noop, d, rfl⟩
theorem digit0 (p : Nat) (d : Byte) : Statement (.digit0 p d) := fun _ => ⟨.digit0, d, rfl⟩
theorem digit1 (p : Nat) (d : Byte) : Statement (.digit1 p d) := fun _ => ⟨.digit1, d, rfl⟩
theorem digit2 (p : Nat) (d : Byte) : Statement (.digit2 p d) := fun _ => ⟨.digit2, d, rfl⟩
theorem digit3 (p : Nat) (d : Byte) : Statement (.digit3 p d) := fun _ => ⟨.digit3, d, rfl⟩
theorem digit4 (p : Nat) (d : Byte) : Statement (.digit4 p d) := fun _ => ⟨.digit4, d, rfl⟩
theorem digit5 (p : Nat) (d : Byte) : Statement (.digit5 p d) := fun _ => ⟨.digit5, d, rfl⟩
theorem digit6 (p : Nat) (d : Byte) : Statement (.digit6 p d) := fun _ => ⟨.digit6, d, rfl⟩
theorem digit7 (p : Nat) (d : Byte) : Statement (.digit7 p d) := fun _ => ⟨.digit7, d, rfl⟩
theorem decodeMode (p : Nat) (d : Byte) : Statement (.decodeMode p d) := fun _ => ⟨.decodeMode, d, rfl⟩
theorem intensity (p : Nat) (d : Byte) : Statement (.intensity p d) := fun _ => ⟨.intensity, d, rfl⟩
theorem scanLimit (p : Nat) (d : Byte) : Statement (.scanLimit p d) := fun _ => ⟨.scanLimit, d, rfl⟩
theorem shutdown (p : Nat) (d : Byte) : Statement (.shutdown p d) := fun _ => ⟨.shutdown, d, rfl⟩
theorem displayTest (p : Nat) (d : Byte) : Statement (.displayTest p d) := fun _ => ⟨.displayTest, d, rfl⟩

end EncodingShape

end Sys2Proof.Laws
end

