-- ==== Sys2Proof/Laws/Run.lean ====
section
/-! SUPPORT. Runs: how steps compose, what a busy step is, and the run of one whole frame (R22, R89). -/

namespace Sys2Proof.Machine

theorem run_zero (s : State) : run 0 s = .next s := rfl

/-- A run of a machine, unfolded once. -/
theorem core_run_succ (M : Host.Core) (k : Nat) (s : M.State) :
    M.run (k + 1) s = match M.step s with
      | .next t => M.run k t
      | .fault r => .fault r
      | .refused r => .refused r := by
  cases h : M.step s <;> simp [Host.Core.run, h]

theorem run_succ {s t : State} (k : Nat) (h : step s = .next t) : run (k + 1) s = run k t := by
  have hs : Sys2Proof.core.step s = .next t := h
  have hr := core_run_succ Sys2Proof.core k s
  rw [hs] at hr
  exact hr

/-- A run that answers a next state took a step that did. -/
theorem run_succ_next {s t : State} {k : Nat} (h : run (k + 1) s = .next t) : ∃ u, step s = .next u ∧ run k u = .next t := by
  have hr := (core_run_succ Sys2Proof.core k s).symm.trans h
  cases hs : step s with
  | next u =>
    have hs' : Sys2Proof.core.step s = .next u := hs
    rw [hs'] at hr
    exact ⟨u, rfl, hr⟩
  | fault r =>
    have hs' : Sys2Proof.core.step s = .fault r := hs
    rw [hs'] at hr
    cases hr
  | refused r =>
    have hs' : Sys2Proof.core.step s = .refused r := hs
    rw [hs'] at hr
    cases hr

theorem run_one {s t : State} (h : step s = .next t) : run 1 s = .next t := by
  rw [run_succ 0 h, run_zero]

/-- Runs compose. -/
theorem run_add {s t : State} (a b : Nat) (h : run a s = .next t) : run (a + b) s = run b t := by
  induction a generalizing s with
  | zero => cases h; rw [Nat.zero_add]
  | succ a ih =>
    obtain ⟨u, hu, hr⟩ := run_succ_next h
    rw [Nat.succ_add, run_succ _ hu]
    exact ih hr

theorem hostWaits_congr {s t : State} (h : t.host = s.host) : t.hostWaits = s.hostWaits := by
  unfold State.hostWaits
  rw [h]

theorem hostWaits_of_requests {s : State} (h : s.host.all HostMove.isRequest = true) : s.hostWaits = true := by
  unfold State.hostWaits
  cases hh : s.host with
  | nil => rfl
  | cons m rest =>
    rw [hh] at h
    cases m <;> simp [HostMove.isRequest] at h ⊢

/-- A busy FRAMER whose HOST waits sends (R22, R119). -/
theorem step_waiting {s : State} (hb : s.busy = true) (hh : s.hostWaits = true) : step s = send s := by
  unfold State.hostWaits at hh
  unfold step
  split at hh
  · simp [*, framerStep]
  · simp [*, framerStep]
  · cases hh

/-- The state of the FRAMER after `j` bytes of the frame `f`, begun in `s` (R22, R39). -/
def midFrame (s : State) (f : Frame) (j : Nat) : State :=
  { s with
    stb := .low, trace := s.trace ++ ([Event.sl] ++ ((frameBytes f).take j).map Event.b),
    shifted := (frameBytes f).take j, k := j + 1, draws := s.draws + j }

/-- After `j` bytes of a frame (R22). -/
theorem run_midFrame {s : State} {f : Frame} (hb : s.busy = true) (hh : s.hostWaits = true) (hk : s.k = 0)
    (hx : s.xferStalled = false) (hf : s.plan[s.q]? = some f) (hl : f.length = s.len) (j : Nat) (hj : j ≤ 2 * s.len) :
    run (j + 1) s = .next (midFrame s f j) := by
  induction j with
  | zero =>
    refine run_one ?_
    rw [step_waiting hb hh]
    simp [send, hf, hk, sendStrobeLow, midFrame, State.emit, State.setStrobe]
  | succ j ih =>
    rw [run_add (j + 1) 1 (ih (by omega))]
    refine run_one ?_
    have hlt : j < (frameBytes f).length := by rw [frameBytes_length]; omega
    have hp : (midFrame s f j).plan[(midFrame s f j).q]? = some f := hf
    have hk2 : (midFrame s f j).k = j + 1 := rfl
    have hl2 : (midFrame s f j).len = s.len := rfl
    have hs2 : (midFrame s f j).stb = .low := rfl
    have hx2 : (midFrame s f j).xferStalled = false := hx
    rw [step_waiting (s := midFrame s f j) hb ((hostWaits_congr rfl).trans hh), send, hp]
    simp only [hk2, hl2]
    rw [if_neg (by omega), if_pos (by omega), sendByte, hk2, wireByte_eq]
    simp only [Nat.add_sub_cancel, List.getElem?_eq_getElem hlt, hs2, hx2]
    have ht : (frameBytes f).take (j + 1) = (frameBytes f).take j ++ [(frameBytes f)[j]] := by
      rw [List.take_add_one, List.getElem?_eq_getElem hlt]
      rfl
    simp only [midFrame, State.xfer, ht, List.map_append, List.append_assoc]
    simp only [reduceCtorEq, if_false, Bool.false_eq_true, Nat.add_assoc]
    rfl

/-- A whole frame: `2*N + 2` steps, its events on the trace, its pairs latched, and the sequencer moved on (R22, R89). -/
theorem run_frame {s : State} {f : Frame} (hb : s.busy = true) (hh : s.hostWaits = true) (hk : s.k = 0)
    (hx : s.xferStalled = false) (hf : s.plan[s.q]? = some f) (hw : Frame.wf s.len f) (h8 : s.len ≤ 8) :
    run (2 * s.len + 2) s = .next (advance { s with
      stb := .high, trace := s.trace ++ frameEvents f, shifted := frameBytes f, k := 2 * s.len + 1,
      mem := s.mem.latchPairs 0 f, draws := s.draws + 2 * s.len }) := by
  have hlen : (frameBytes f).length = 2 * s.len := by rw [frameBytes_length, hw.1]
  have ht : (frameBytes f).take (2 * s.len) = frameBytes f := by rw [← hlen, List.take_length]
  rw [show 2 * s.len + 2 = (2 * s.len + 1) + 1 from rfl,
    run_add _ 1 (run_midFrame hb hh hk hx hf hw.1 (2 * s.len) (Nat.le_refl _))]
  refine run_one ?_
  have hp : (midFrame s f (2 * s.len)).plan[(midFrame s f (2 * s.len)).q]? = some f := hf
  have hk2 : (midFrame s f (2 * s.len)).k = 2 * s.len + 1 := rfl
  have hl2 : (midFrame s f (2 * s.len)).len = s.len := rfl
  rw [step_waiting (s := midFrame s f (2 * s.len)) hb ((hostWaits_congr rfl).trans hh), send, hp]
  simp only [hk2, hl2]
  rw [if_neg (by omega), if_neg (by omega), if_pos trivial, sendStrobeHigh,
    commit_frame (s := midFrame s f (2 * s.len)) (f := f) h8 rfl ht hw]
  simp only [midFrame, State.setStrobe, State.emit, ht, frameEvents, List.append_assoc]

end Sys2Proof.Machine
end

