-- ==== Sys2Proof/Machine/Assembler.lean ====
section
/-! DEFINITION. The assembler text of R75 and the symbolic register names of R77. -/

namespace Sys2Proof.Machine

/-- The symbolic name of a register operand (R77). -/
def regSymbol : DevReg → String
  | .noop => "NOOP"
  | .digit0 => "DIGIT0"
  | .digit1 => "DIGIT1"
  | .digit2 => "DIGIT2"
  | .digit3 => "DIGIT3"
  | .digit4 => "DIGIT4"
  | .digit5 => "DIGIT5"
  | .digit6 => "DIGIT6"
  | .digit7 => "DIGIT7"
  | .decodeMode => "DECODE_MODE"
  | .intensity => "INTENSITY"
  | .scanLimit => "SCAN_LIMIT"
  | .shutdown => "SHUTDOWN"
  | .displayTest => "DISPLAY_TEST"

/-- The fourteen registers in address order (R29). -/
def allRegs : List DevReg :=
  [.noop, .digit0, .digit1, .digit2, .digit3, .digit4, .digit5, .digit6, .digit7, .decodeMode, .intensity, .scanLimit,
    .shutdown, .displayTest]

/-- The register that a symbol names, wherever a `reg` operand stands (R77). -/
def regOfSymbol (name : String) : Option DevReg := allRegs.find? (fun r => regSymbol r == name)

/-- The pairs of WRITE_ALL, `(reg, data)` separated by commas (R75). -/
def commandsText : List Command → String
  | [] => ""
  | [c] => "(" ++ regSymbol c.reg ++ ", " ++ toString c.data.toNat ++ ")"
  | c :: cmds => "(" ++ regSymbol c.reg ++ ", " ++ toString c.data.toNat ++ "), " ++ commandsText cmds

/-- A request as assembler text (R75). A device pair has no text of its own in R75: none. -/
def asmText : Instr → Option String
  | .configure dc iv => some ("CONFIGURE " ++ toString dc.toNat ++ ", " ++ toString iv.toNat)
  | .setScanLimit n => some ("SET_SCAN_LIMIT " ++ toString n.toNat)
  | .setIntensity v => some ("SET_INTENSITY " ++ toString v.toNat)
  | .setDecodeMode n => some ("SET_DECODE_MODE " ++ toString n.toNat)
  | .enterShutdown => some "ENTER_SHUTDOWN"
  | .exitShutdown => some "EXIT_SHUTDOWN"
  | .enterDisplayTest => some "ENTER_DISPLAY_TEST"
  | .exitDisplayTest => some "EXIT_DISPLAY_TEST"
  | .writeOne idx reg data => some ("WRITE_ONE " ++ toString idx.toNat ++ ", " ++ regSymbol reg ++ ", " ++ toString data.toNat)
  | .writeAll cmds => some ("WRITE_ALL " ++ commandsText cmds)
  | .writeSame reg data => some ("WRITE_SAME " ++ regSymbol reg ++ ", " ++ toString data.toNat)
  | .noop _ _ => none
  | .digit0 _ _ => none
  | .digit1 _ _ => none
  | .digit2 _ _ => none
  | .digit3 _ _ => none
  | .digit4 _ _ => none
  | .digit5 _ _ => none
  | .digit6 _ _ => none
  | .digit7 _ _ => none
  | .decodeMode _ _ => none
  | .intensity _ _ => none
  | .scanLimit _ _ => none
  | .shutdown _ _ => none
  | .displayTest _ _ => none

end Sys2Proof.Machine
end

