-- ==== Sys2Proof/Tests/Slice0.lean ====
section
/-! SUPPORT. The model's own tests: ill-formed terms and words are refused, words written out from the spec decode, one step of
each instruction gives what 95_test_vectors.md or the instruction's rule says, and every statement with hypotheses has
concrete data that meet them. -/

namespace Sys2Proof.Tests

open Sys2Proof.Machine

/-! Well-formedness: one ill-formed term for each of the two checks, and the last term each accepts (R6, R71). -/

theorem test_wf_refuses_cnt_256 : (Instr.writeAll (List.replicate 256 ⟨.noop, 0#8⟩)).wellFormed = false := by
  rw [Instr.wellFormed, countOk, List.length_replicate]; rfl

theorem test_wf_accepts_cnt_255 : (Instr.writeAll (List.replicate 255 ⟨.noop, 0#8⟩)).wellFormed = true := by
  rw [Instr.wellFormed, countOk, List.length_replicate]; rfl

theorem test_wf_refuses_position_8 : allRegs.map (fun r => (pairInstr 8 0#8 r).wellFormed) = List.replicate 14 false := by
  decide

theorem test_wf_accepts_position_7 : allRegs.map (fun r => (pairInstr 7 0#8 r).wellFormed) = List.replicate 14 true := by
  decide

/-! Decoding, each word written out from the spec: R70's opcode map and 95_test_vectors.md for the requests, R63 for the
pairs. -/

/-- V38 -/
theorem test_decode_configure : decode .host [0x01#8, 0x08#8, 0x00#8] =
    .ok (.configure 8#8 0#8) := by decide

/-- V26 -/
theorem test_decode_setScanLimit : decode .host [0x02#8, 0x04#8] =
    .ok (.setScanLimit 4#8) := by decide

/-- V34 -/
theorem test_decode_setIntensity : decode .host [0x03#8, 0x10#8] =
    .ok (.setIntensity 16#8) := by decide

/-- P3 -/
theorem test_decode_setDecodeMode : decode .host [0x04#8, 0x01#8] =
    .ok (.setDecodeMode 1#8) := by decide

/-- V47 -/
theorem test_decode_enterShutdown : decode .host [0x05#8] =
    .ok (.enterShutdown) := by decide

/-- V48 -/
theorem test_decode_exitShutdown : decode .host [0x06#8] =
    .ok (.exitShutdown) := by decide

/-- V49 -/
theorem test_decode_enterDisplayTest : decode .host [0x07#8] =
    .ok (.enterDisplayTest) := by decide

/-- V50 -/
theorem test_decode_exitDisplayTest : decode .host [0x08#8] =
    .ok (.exitDisplayTest) := by decide

/-- S6 -/
theorem test_decode_writeOne : decode .host [0x09#8, 0x01#8, 0x04#8, 0x5F#8] =
    .ok (.writeOne 1#8 .digit3 0x5F#8) := by decide

/-- V21 -/
theorem test_decode_writeAll : decode .host [0x0A#8, 0x03#8, 0x08#8, 0x0A#8, 0x00#8, 0x00#8, 0x01#8, 0x0B#8] =
    .ok (.writeAll [⟨.digit7, 0x0A#8⟩, ⟨.noop, 0x00#8⟩, ⟨.digit0, 0x0B#8⟩]) := by decide

/-- V22 -/
theorem test_decode_writeSame : decode .host [0x0B#8, 0x0C#8, 0x01#8] =
    .ok (.writeSame .shutdown 1#8) := by decide

theorem test_decode_noop : decode (.device 0) [0x00#8, 0xA5#8] = .ok (.noop 0 0xA5#8) := by decide
theorem test_decode_digit0 : decode (.device 1) [0x01#8, 0xA6#8] = .ok (.digit0 1 0xA6#8) := by decide
theorem test_decode_digit1 : decode (.device 2) [0x02#8, 0xA7#8] = .ok (.digit1 2 0xA7#8) := by decide
theorem test_decode_digit2 : decode (.device 3) [0x03#8, 0xA8#8] = .ok (.digit2 3 0xA8#8) := by decide
theorem test_decode_digit3 : decode (.device 4) [0x04#8, 0xA9#8] = .ok (.digit3 4 0xA9#8) := by decide
theorem test_decode_digit4 : decode (.device 5) [0x05#8, 0xAA#8] = .ok (.digit4 5 0xAA#8) := by decide
theorem test_decode_digit5 : decode (.device 6) [0x06#8, 0xAB#8] = .ok (.digit5 6 0xAB#8) := by decide
theorem test_decode_digit6 : decode (.device 7) [0x07#8, 0xAC#8] = .ok (.digit6 7 0xAC#8) := by decide
theorem test_decode_digit7 : decode (.device 0) [0x08#8, 0xAD#8] = .ok (.digit7 0 0xAD#8) := by decide
theorem test_decode_decodeMode : decode (.device 1) [0x09#8, 0xAE#8] = .ok (.decodeMode 1 0xAE#8) := by decide
theorem test_decode_intensity : decode (.device 2) [0x0A#8, 0xAF#8] = .ok (.intensity 2 0xAF#8) := by decide
theorem test_decode_scanLimit : decode (.device 3) [0x0B#8, 0xB0#8] = .ok (.scanLimit 3 0xB0#8) := by decide
theorem test_decode_shutdown : decode (.device 4) [0x0C#8, 0xB1#8] = .ok (.shutdown 4 0xB1#8) := by decide
theorem test_decode_displayTest : decode (.device 5) [0x0F#8, 0xB2#8] = .ok (.displayTest 5 0xB2#8) := by decide

/-- V17, V18, V12a, V36, V51: a wrong length -/
theorem test_decode_wrong_length :
    decode .host [0x0A#8] = .error .wrongLength ∧ decode .host [0x0A#8, 0x02#8, 0x01#8, 0x11#8] = .error .wrongLength ∧
    decode .host [0x09#8, 0x00#8, 0x01#8] = .error .wrongLength ∧ decode .host [0x03#8] = .error .wrongLength ∧
    decode .host [0x05#8, 0x00#8] = .error .wrongLength := by decide

/-- V52 to V54 and R73 for the empty list: no opcode -/
theorem test_decode_reserved_opcode :
    decode .host [0x00#8] = .error .reservedOpcode ∧ decode .host [0x0C#8] = .error .reservedOpcode ∧
    decode .host [0xFF#8] = .error .reservedOpcode ∧ decode .host [] = .error .empty := by decide

/-- V12, V19, V20, V23, V25: a reserved register -/
theorem test_decode_reserved_register :
    decode .host [0x09#8, 0x09#8, 0x0D#8, 0x00#8] = .error .reservedRegister ∧
    decode .host [0x0A#8, 0x02#8, 0x0D#8, 0x00#8, 0x01#8, 0x01#8] = .error .reservedRegister ∧
    decode .host [0x0A#8, 0x03#8, 0x0D#8, 0x00#8, 0x01#8, 0x01#8, 0x02#8, 0x02#8] = .error .reservedRegister ∧
    decode .host [0x0B#8, 0x0E#8, 0x01#8] = .error .reservedRegister ∧
    decode .host [0x0B#8, 0x10#8, 0x00#8] = .error .reservedRegister := by decide

/-- R30, R63: a pair with an unassigned register byte, at a position no chain has, of a wrong length -/
theorem test_decode_pair_refused :
    decode (.device 0) [0x0D#8, 0x00#8] = .error .reservedRegister ∧
    decode (.device 0) [0x81#8, 0x00#8] = .error .reservedRegister ∧
    decode (.device 8) [0x01#8, 0x00#8] = .error .noSuchPosition ∧
    decode (.device 0) [0x01#8] = .error .wrongLength := by decide

/-- Rows of the opcode table: NOOP, DISPLAY_TEST, the last unassigned pair, CONFIGURE, WRITE_ALL, a reserved opcode -/
theorem test_decode_table_rows :
    decodeTableWord 16 0x0000 = some (.noop 0 0#8) ∧ decodeTableWord 16 0x0FA5 = some (.displayTest 0 0xA5#8) ∧
    decodeTableWord 16 0x0E00 = none ∧ decodeTableWord 8 0x01 = some (.configure 0#8 0#8) ∧
    decodeTableWord 8 0x0A = some (.writeAll []) ∧ decodeTableWord 8 0x0C = none := by decide

/-- The next step from reset runs the table row: WRITE_ONE is accepted, and DIGIT0 of device 0 is latched. -/
theorem test_fetch_word_runs_row :
    step (State.reset.withFetchWord 8 0x09) = exec (.writeOne 0#8 .noop 0#8) State.reset ∧
    ∃ t, step (State.reset.withFetchWord 16 0x01A5) = .next t ∧ t.deviceRegister 0 .digit0 = some 0xA5#8 :=
  ⟨rfl, _, rfl, by decide⟩

/-! One request each: its whole trace at the transaction level, as 95_test_vectors.md lists it. -/

/-- The bus events of one frame, from its bytes. -/
def burst (bytes : List Byte) : List Event := Event.sl :: bytes.map Event.b ++ [Event.sh]

/-- V39 -/
theorem test_trace_configure : transaction 2 [0x01#8, 0x04#8, 0xFF#8] =
    (.ok, burst [0x0F#8, 0x00#8, 0x0F#8, 0x00#8] ++
      burst [0x0B#8, 0x03#8, 0x0B#8, 0x03#8] ++ burst [0x0A#8, 0x0F#8, 0x0A#8, 0x0F#8] ++
      burst [0x09#8, 0xFF#8, 0x09#8, 0xFF#8] ++ burst [0x0C#8, 0x01#8, 0x0C#8, 0x01#8]) := by decide

/-- V38 -/
theorem test_trace_configure_zero_intensity : transaction 1 [0x01#8, 0x08#8, 0x00#8] =
    (.ok, burst [0x0F#8, 0x00#8] ++ burst [0x0B#8, 0x07#8] ++
      burst [0x0A#8, 0x01#8] ++ burst [0x09#8, 0xFF#8] ++ burst [0x0C#8, 0x01#8]) := by decide

/-- V26 -/
theorem test_trace_scan_limit : transaction 2 [0x02#8, 0x04#8] =
    (.ok, burst [0x0B#8, 0x03#8, 0x0B#8, 0x03#8]) := by decide

/-- V29 -/
theorem test_trace_scan_limit_wraps : transaction 2 [0x02#8, 0x00#8] =
    (.ok, burst [0x0B#8, 0xFF#8, 0x0B#8, 0xFF#8]) := by decide

/-- V34 -/
theorem test_trace_intensity_saturates : transaction 2 [0x03#8, 0x10#8] =
    (.ok, burst [0x0A#8, 0x0F#8, 0x0A#8, 0x0F#8]) := by decide

/-- V32 -/
theorem test_trace_intensity_zero_kept : transaction 2 [0x03#8, 0x00#8] =
    (.ok, burst [0x0A#8, 0x00#8, 0x0A#8, 0x00#8]) := by decide

/-- V47 -/
theorem test_trace_enter_shutdown : transaction 2 [0x05#8] =
    (.ok, burst [0x0C#8, 0x00#8, 0x0C#8, 0x00#8]) := by decide

/-- V48 -/
theorem test_trace_exit_shutdown : transaction 2 [0x06#8] =
    (.ok, burst [0x0C#8, 0x01#8, 0x0C#8, 0x01#8]) := by decide

/-- V49 -/
theorem test_trace_enter_display_test : transaction 1 [0x07#8] =
    (.ok, burst [0x0F#8, 0x01#8]) := by decide

/-- V50 -/
theorem test_trace_exit_display_test : transaction 1 [0x08#8] =
    (.ok, burst [0x0F#8, 0x00#8]) := by decide

/-- V6 -/
theorem test_trace_write_one : transaction 3 [0x09#8, 0x01#8, 0x01#8, 0xA5#8] =
    (.ok, burst [0x00#8, 0x00#8, 0x01#8, 0xA5#8, 0x00#8, 0x00#8]) := by decide

/-- S6 -/
theorem test_trace_write_one_end_to_end : transaction 2 [0x09#8, 0x01#8, 0x04#8, 0x5F#8] =
    (.ok, burst [0x00#8, 0x00#8, 0x04#8, 0x5F#8]) := by decide

/-- V13 -/
theorem test_trace_write_all : transaction 2 [0x0A#8, 0x02#8, 0x01#8, 0x11#8, 0x02#8, 0x22#8] =
    (.ok, burst [0x01#8, 0x11#8, 0x02#8, 0x22#8]) := by decide

/-- V24 -/
theorem test_trace_write_same : transaction 3 [0x0B#8, 0x00#8, 0x77#8] =
    (.ok, burst [0x00#8, 0x77#8, 0x00#8, 0x77#8, 0x00#8, 0x77#8]) := by decide

/-- V37 -/
theorem test_trace_decode_mode :
    [0#8, 1#8, 2#8, 3#8, 4#8, 5#8, 6#8, 7#8, 8#8, 9#8, 10#8, 255#8].map (fun n => transaction 1 [0x04#8, n]) =
    [0x00#8, 0x01#8, 0x0F#8, 0x0F#8, 0x0F#8, 0x00#8, 0x00#8, 0x00#8, 0xFF#8, 0x00#8, 0x00#8, 0x00#8].map
      (fun d => (.ok, burst [0x09#8, d])) := by decide

/-- V40, V41, V42 -/
theorem test_reject_configure : [0x00#8, 0x09#8, 0xFF#8].map (fun dc => transaction 1 [0x01#8, dc, 0x05#8]) =
    List.replicate 3 (.rejected .invalidConfiguration, []) := by decide

/-- V2, V5, V9, V10 -/
theorem test_reject_write_one :
    [(1, 0x01#8), (2, 0x02#8), (8, 0x08#8), (2, 0xFF#8)].map (fun x => transaction x.1 [0x09#8, x.2, 0x01#8, 0xA5#8]) =
    List.replicate 4 (.rejected .invalidDeviceIndex, []) := by decide

/-- V14, V15, V16 -/
theorem test_reject_write_all :
    [[0x0A#8, 0x01#8, 0x01#8, 0x11#8], [0x0A#8, 0x03#8, 0x01#8, 0x01#8, 0x02#8, 0x02#8, 0x03#8, 0x03#8],
      [0x0A#8, 0x00#8]].map (transaction 2) = List.replicate 3 (.rejected .frameLengthMismatch, []) := by decide

/-- V12, V20: a reserved register outranks a bad index and a wrong length -/
theorem test_reject_priority :
    transaction 2 [0x09#8, 0x09#8, 0x0D#8, 0x00#8] = (.rejected .illegalRequest, []) ∧
    transaction 2 [0x0A#8, 0x03#8, 0x0D#8, 0x00#8, 0x01#8, 0x01#8, 0x02#8, 0x02#8] = (.rejected .illegalRequest, []) := by
  decide

/-- The codes of R74 and R94 -/
theorem test_status_codes : [Status.ok, .rejected .invalidConfiguration, .rejected .invalidDeviceIndex,
    .rejected .frameLengthMismatch, .rejected .illegalRequest].map Status.code = [0#3, 1#3, 2#3, 3#3, 4#3] := by decide

/-! One pair each, at the last device of a chain of two: the byte is stored under the address of R29. -/

/-- The register space after a result. -/
def memOf : Result → Option Memory
  | .next t => some t.mem
  | .fault _ => none
  | .refused _ => none

theorem test_pair_noop : memOf (exec (.noop 1 0xA5#8) (State.powerUp 2)) = some [] := by decide
theorem test_pair_digit0 : memOf (exec (.digit0 1 0xA6#8) (State.powerUp 2)) = some [(0x101, 0xA6#8)] := by decide
theorem test_pair_digit1 : memOf (exec (.digit1 1 0xA7#8) (State.powerUp 2)) = some [(0x102, 0xA7#8)] := by decide
theorem test_pair_digit2 : memOf (exec (.digit2 1 0xA8#8) (State.powerUp 2)) = some [(0x103, 0xA8#8)] := by decide
theorem test_pair_digit3 : memOf (exec (.digit3 1 0xA9#8) (State.powerUp 2)) = some [(0x104, 0xA9#8)] := by decide
theorem test_pair_digit4 : memOf (exec (.digit4 1 0xAA#8) (State.powerUp 2)) = some [(0x105, 0xAA#8)] := by decide
theorem test_pair_digit5 : memOf (exec (.digit5 1 0xAB#8) (State.powerUp 2)) = some [(0x106, 0xAB#8)] := by decide
theorem test_pair_digit6 : memOf (exec (.digit6 1 0xAC#8) (State.powerUp 2)) = some [(0x107, 0xAC#8)] := by decide
theorem test_pair_digit7 : memOf (exec (.digit7 1 0xAD#8) (State.powerUp 2)) = some [(0x108, 0xAD#8)] := by decide
theorem test_pair_decodeMode : memOf (exec (.decodeMode 1 0xAE#8) (State.powerUp 2)) = some [(0x109, 0xAE#8)] := by decide
theorem test_pair_intensity : memOf (exec (.intensity 1 0xAF#8) (State.powerUp 2)) = some [(0x10A, 0xAF#8)] := by decide
theorem test_pair_scanLimit : memOf (exec (.scanLimit 1 0xB0#8) (State.powerUp 2)) = some [(0x10B, 0xB0#8)] := by decide
theorem test_pair_shutdown : memOf (exec (.shutdown 1 0xB1#8) (State.powerUp 2)) = some [(0x10C, 0xB1#8)] := by decide
theorem test_pair_displayTest : memOf (exec (.displayTest 1 0xB2#8) (State.powerUp 2)) = some [(0x10F, 0xB2#8)] := by decide

/-! What the registers mean (R50 to R55, R111). -/

/-- A chain of one whose SHUTDOWN, DISPLAY_TEST and DECODE_MODE registers hold the given bytes and whose DIGIT0 holds 5. -/
def chip (sd dt dm : Byte) : State := { State.powerUp 1 with mem := [(0x01, 0x05#8), (0x09, dm), (0x0C, sd), (0x0F, dt)] }

/-- Blank in shutdown, all segments on in test, digits in normal operation; unspecified in both modes at once (U8) and for a
byte above 1 (U7). -/
theorem test_display :
    (chip 0#8 0#8 0#8).display 0 = some .blank ∧ (chip 1#8 1#8 0#8).display 0 = some .allOn ∧
    (chip 1#8 0#8 0#8).display 0 = some .digits ∧ (chip 0#8 1#8 0#8).display 0 = none ∧
    (chip 2#8 0#8 0#8).display 0 = none ∧ (State.powerUp 1).display 0 = none := by decide

/-- Bit `i` of DECODE_MODE selects digit `i` (R50): 0x01 decodes digit 0 only. The BCD value has four bits (R42). -/
theorem test_digit_meaning :
    (chip 1#8 0#8 1#8).digitMeaning 0 0 = some (.bcd 5#4) ∧ (chip 1#8 0#8 0xFE#8).digitMeaning 0 0 = some (.segments 5#8) ∧
    (chip 1#8 0#8 1#8).digitMeaning 0 1 = none := by decide

/-! Assembler text (R75, R77; the programs P1 and P3 of 95_test_vectors.md). -/

theorem test_symbols : allRegs.map (fun r => regOfSymbol (regSymbol r)) = allRegs.map some := by decide

/-- The BCD values end at 0x0F; no value is defined above (log 25). -/
theorem test_bcd_range : bcdValue 0x0F#8 = some 15#4 ∧ bcdValue 0x10#8 = none := by decide

theorem test_asm_text : asmText (.writeAll [⟨.digit1, 1#8⟩, ⟨.digit1, 2#8⟩]) = some "WRITE_ALL (DIGIT1, 1), (DIGIT1, 2)" ∧
    asmText (.writeOne 0#8 .digit0 5#8) = some "WRITE_ONE 0, DIGIT0, 5" ∧ asmText .enterShutdown = some "ENTER_SHUTDOWN" := by
  decide

/-! Concrete data for the statements' hypotheses. Each theorem is named after its statement. -/

/-- The frame of S6. -/
def frameS6 : Frame := [⟨0x00#8, 0x00#8⟩, ⟨0x04#8, 0x5F#8⟩]

/-- V55: WRITE_ONE 1, DIGIT3, 0x5F in flight on a chain of two, before the bus event number `k`. -/
def flight (k : Nat) : State :=
  { State.powerUp 2 with
    busy := true, plan := [frameS6], k := k, stb := if k = 0 then .high else .low, fb := loadFrame frameS6 (State.powerUp 2).fb,
    shifted := (frameBytes frameS6).take (k - 1), trace := (frameEvents frameS6).take k }

/-- The third frame of CONFIGURE 8, 0 on a chain of one (V56), before the strobe-high event. -/
def configureFlight : State :=
  { State.powerUp 1 with
    busy := true, stb := .low, q := 2, k := 3, shifted := [0x0A#8, 0x01#8], fb := loadFrame [⟨0x0A#8, 0x01#8⟩] (State.powerUp 1).fb,
    plan := [[⟨0x0F#8, 0x00#8⟩], [⟨0x0B#8, 0x07#8⟩], [⟨0x0A#8, 0x01#8⟩], [⟨0x09#8, 0xFF#8⟩], [⟨0x0C#8, 0x01#8⟩]] }

/-- A chain of two with bytes in its registers, idle, whose HOST makes the given moves. -/
def idleHost (moves : List HostMove) : State :=
  { State.powerUp 2 with host := moves, mem := [(0x01, 0x11#8), (0x10C, 0x01#8)] }

/-- A state in flight whose HOST makes the given moves. -/
def busyHost (moves : List HostMove) : State := { flight 3 with host := moves }

/-- V55 row by row: each step leads to the next row of the table. -/
theorem test_v55_sends : step (flight 0) = .next (flight 1) ∧ step (flight 4) = .next { flight 5 with draws := 1 } ∧
    step (flight 5) = .next { State.powerUp 2 with
      fb := (flight 5).fb, shifted := [0x00#8, 0x00#8, 0x04#8, 0x5F#8], mem := [(0x104, 0x5F#8)],
      trace := burst [0x00#8, 0x00#8, 0x04#8, 0x5F#8] ++ [.resp .ok] } := ⟨rfl, rfl, rfl⟩

theorem test_witness_DecodeInvertsEncode : (Instr.writeAll (List.replicate 255 ⟨.noop, 0#8⟩)).wellFormed = true ∧
    (Instr.displayTest 7 0xFF#8).wellFormed = true := ⟨test_wf_accepts_cnt_255, rfl⟩

theorem test_witness_EncodeInvertsDecode : decode .host [0x0A#8, 0x00#8] = .ok (.writeAll []) ∧
    decode (.device 7) [0x00#8, 0xFF#8] = .ok (.noop 7 0xFF#8) := by decide

theorem test_witness_RequestWellFormedExactly :
    (∃ i, decode .host [0x0A#8, 0x01#8, 0x0F#8, 0x00#8] = .ok i) ∧ requestLength 0x0A#8 [0x01#8, 0x0F#8, 0x00#8] = some 4 ∧
    requestLength 0x0A#8 [0x01#8] = some 4 ∧ (DevReg.ofAddress 0x0F#8).isSome = true ∧
    (DevReg.ofAddress 0x0E#8).isSome = false :=
  ⟨⟨_, rfl⟩, by decide, by decide, by decide, by decide⟩

theorem test_witness_ConstructionLeavesFramerIdle :
    (∃ t, construct 1 (flight 3) = .next t) ∧ ∃ t, construct 8 (idleHost []) = .next t :=
  ⟨⟨_, rfl⟩, ⟨_, rfl⟩⟩

/-- V58 to V61 -/
theorem test_witness_ConstructionAcceptsOneToEight : (idleHost [.reset 8]).host = [.reset 8] ∧
    step (idleHost [.reset 8]) = .next { idleHost [] with len := 8, mem := [] } ∧
    step (idleHost [.reset 9]) = .refused (.invalidConfiguration 9) ∧
    step (idleHost [.reset 0]) = .refused (.invalidConfiguration 0) := ⟨rfl, rfl, rfl, rfl⟩

theorem test_witness_ConstructionSendsNothing : (idleHost []).Inv ∧ (idleHost []).busy = false ∧
    ∃ t, construct (idleHost []).len (idleHost []) = .next t := ⟨by decide, rfl, ⟨_, rfl⟩⟩

theorem test_witness_ResetInMidRequestForgetsChain :
    (busyHost [.reset 8]).host = [.reset 8] ∧ (busyHost [.reset 1]).host = [.reset 1] ∧ (busyHost [.reset 8]).busy = true :=
  ⟨rfl, rfl, rfl⟩

theorem test_witness_ResetMeetsInvariant : (State.powerUp 1).Inv ∧ (State.powerUp 8).Inv :=
  ⟨by decide, by decide⟩

theorem test_witness_StepKeepsInvariant : (flight 0).Inv ∧ (flight 5).Inv ∧ configureFlight.Inv ∧ (idleHost []).Inv ∧
    (∃ t, step (flight 0) = .next t) ∧ (∃ t, step (flight 5) = .next t) ∧ ∃ t, step configureFlight = .next t :=
  ⟨by decide, by decide, by decide, by decide, ⟨_, rfl⟩, ⟨_, rfl⟩, ⟨_, rfl⟩⟩

theorem test_witness_StepKeepsTraceBracketed : (flight 5).Inv ∧ (flight 5).TraceBracketed ∧ (flight 5).resetNext = false ∧
    ∃ t, step (flight 5) = .next t := ⟨by decide, by decide, rfl, ⟨_, rfl⟩⟩

theorem test_witness_CourteousHostNeverStops : (busyHost [.request [0xFF#8], .letRun]).Inv ∧
    (busyHost [.request [0xFF#8], .letRun]).host.all HostMove.courteous = true := by decide

theorem test_witness_StepRunsDecodedRequest :
    (idleHost [.request [0x05#8]]).host = [.request [0x05#8]] ∧ (idleHost [.request [0x05#8]]).busy = false ∧
    decode .host [0x05#8] = .ok .enterShutdown := by decide

/-- for StrobeHighExecutesPairs, SendStrobeHighMovesOn and the first clause of CommitLatchesEveryDevice -/
theorem test_witness_strobe_high : (flight 5).Inv ∧ (flight 5).busy = true ∧ (flight 5).k = 2 * (flight 5).len + 1 ∧
    (flight 5).hostWaits = true ∧ (flight 5).shifted[2]? = some 0x04#8 ∧ (flight 5).shifted[3]? = some 0x5F#8 ∧
    configureFlight.Inv ∧ configureFlight.k = 2 * configureFlight.len + 1 ∧
    configureFlight.plan[configureFlight.q + 1]? = some [⟨0x09#8, 0xFF#8⟩] ∧ ∃ t, step (flight 5) = .next t :=
  ⟨by decide, rfl, rfl, rfl, rfl, rfl, by decide, rfl, rfl, ⟨_, rfl⟩⟩

/-- for the second clause of CommitLatchesEveryDevice -/
theorem test_witness_no_commit : (flight 4).Inv ∧ ¬ ((flight 4).busy = true ∧ (flight 4).k = 2 * (flight 4).len + 1) ∧
    (flight 4).resetNext = false ∧ ∃ t, step (flight 4) = .next t := ⟨by decide, by decide, rfl, ⟨_, rfl⟩⟩

theorem test_witness_SendStrobeLow :
    (flight 0).Inv ∧ (flight 0).busy = true ∧ (flight 0).k = 0 ∧ (flight 0).hostWaits = true := by decide

/-- the first and the last byte of the frame -/
theorem test_witness_SendByteInWireOrder : (flight 1).Inv ∧ (flight 1).busy = true ∧ (flight 1).xferStalled = false ∧
    (flight 1).hostWaits = true ∧ (flight 1).current[0]? = some ⟨0x00#8, 0x00#8⟩ ∧
    (flight 4).Inv ∧ (flight 4).k = 2 * (flight 4).len ∧ (flight 4).current[1]? = some ⟨0x04#8, 0x5F#8⟩ :=
  ⟨by decide, rfl, rfl, rfl, rfl, by decide, rfl, rfl⟩

theorem test_witness_RequestWhileBusyFaults :
    (busyHost [.requestNow [0x05#8]]).host = [.requestNow [0x05#8]] ∧ (busyHost [.requestNow [0x05#8]]).busy = true :=
  ⟨rfl, rfl⟩

theorem test_witness_IdleFramerWaits : State.reset.host = [] ∧ State.reset.busy = false := ⟨rfl, rfl⟩

theorem test_witness_StalledTransferHangs :
    { flight 3 with xferStalled := true }.Inv ∧ { flight 3 with xferStalled := true }.busy = true ∧
    { flight 3 with xferStalled := true }.k = 3 ∧ { flight 3 with xferStalled := true }.hostWaits = true := by decide

/-- R107: once transfers stall, the byte step leaves the FRAMER where it is; when they complete again, it goes on. -/
theorem test_stall : step (busyHost [.bus true]) = .next { busyHost [] with xferStalled := true } ∧
    step { busyHost [.bus false] with xferStalled := true } = step (flight 3) := ⟨rfl, rfl⟩

/-- for ExpansionsAgree and BusTraceIsWholeFrames: the longest chain, its last position, the greatest digit count -/
theorem test_witness_chain_lengths : 1 ≤ 8 ∧ 8 ≤ 8 ∧ (7#8 : Byte).toNat < 8 ∧ 1 ≤ (8#8 : Byte).toNat ∧ (8#8 : Byte).toNat ≤ 8 := by
  decide

/-- for the request statements that ask for a ready state -/
theorem test_witness_ready : (State.powerUp 1).Ready ∧ (State.powerUp 8).Ready ∧
    (idleHost [.request [0x05#8], .request [0x06#8]]).Ready := by decide

/-- the digit count of ConfigureSendsFiveFrames at both ends of its range -/
theorem test_witness_ConfigureSendsFiveFrames : (State.powerUp 2).Ready ∧ 1 ≤ (1#8 : Byte).toNat ∧ (8#8 : Byte).toNat ≤ 8 := by
  decide

theorem test_witness_ConfigureSetsControlRegisters : (idleHost [.request [0x01#8, 0x08#8, 0x00#8]]).Ready ∧
    (idleHost [.request [0x01#8, 0x08#8, 0x00#8]]).host = [.request [0x01#8, 0x08#8, 0x00#8]] := by decide

/-- the last index of the chain -/
theorem test_witness_WriteOneSendsPaddedFrame : (State.powerUp 2).Ready ∧ (1#8 : Byte).toNat < (State.powerUp 2).len ∧
    frameS6.length = (State.powerUp 2).len ∧
    ∀ p c, frameS6[p]? = some c → c = if p = (1#8 : Byte).toNat then ⟨DevReg.digit3.address, 0x5F#8⟩ else ⟨0x00#8, 0x00#8⟩ := by
  refine ⟨by decide, by decide, rfl, fun p c h => ?_⟩
  rcases p with _ | _ | p <;> simp [frameS6] at h <;> subst h <;> rfl

theorem test_witness_WriteOneChangesOneRegister : (idleHost [.request [0x09#8, 0x01#8, 0x04#8, 0x5F#8]]).Ready ∧
    (idleHost [.request [0x09#8, 0x01#8, 0x04#8, 0x5F#8]]).host =
      [.request [0x09#8, 1#8, DevReg.digit3.address, 0x5F#8]] := by decide

theorem test_witness_WriteAllSendsGivenFrame : (State.powerUp 2).Ready ∧
    ([⟨.digit0, 0x11#8⟩, ⟨.noop, 0x22#8⟩] : List Command).length = (State.powerUp 2).len := by decide

/-- an accepted and a rejected request -/
theorem test_witness_RequestFrameCondition : (Instr.writeOne 2#8 .digit0 0#8).space = .host ∧
    (∃ t, exec (.writeOne 2#8 .digit0 0#8) (State.powerUp 2) = .next t) ∧
    ∃ t, exec (.writeOne 1#8 .digit0 0#8) (State.powerUp 2) = .next t := ⟨rfl, ⟨_, rfl⟩, ⟨_, rfl⟩⟩

/-- each cause, at the value next to the accepted ones -/
theorem test_witness_RejectionCausesExact : (State.powerUp 2).busy = false ∧
    exec (.configure 9#8 5#8) (State.powerUp 2) = .next ((State.powerUp 2).rejectedWith .invalidConfiguration) ∧
    exec (.writeOne 2#8 .digit0 0xA5#8) (State.powerUp 2) = .next ((State.powerUp 2).rejectedWith .invalidDeviceIndex) ∧
    exec (.writeAll []) (State.powerUp 2) = .next ((State.powerUp 2).rejectedWith .frameLengthMismatch) :=
  ⟨rfl, rfl, rfl, rfl⟩

/-- V57 -/
theorem test_witness_RejectedRequestOnlyResponds :
    (idleHost [.request [0x09#8, 0x02#8, 0x01#8, 0xA5#8]]).host = [.request [0x09#8, 0x02#8, 0x01#8, 0xA5#8]] ∧
    (idleHost [.request [0x09#8, 0x02#8, 0x01#8, 0xA5#8]]).busy = false ∧
    decodeAndCheck 2 [0x09#8, 0x02#8, 0x01#8, 0xA5#8] = .error .invalidDeviceIndex ∧
    decodeAndCheck 2 [] = .error .illegalRequest := by decide

theorem test_witness_IllegalRequestComesFirst : DevReg.ofAddress 0x0D#8 = none ∧ DevReg.ofAddress 0x0E#8 = none ∧
    DevReg.ofAddress 0x10#8 = none ∧ ([0x0D#8, 0x00#8] : List Byte).length = 2 * (1#8 : Byte).toNat := by decide

theorem test_witness_EventLevelRefinesTransaction : (idleHost [.request [0x05#8], .request [0x09#8]]).Ready ∧
    (idleHost [.request [0x05#8], .request [0x09#8]]).host = .request [0x05#8] :: [.request [0x09#8]] := by decide

/-- P2 of 95_test_vectors.md, two of its requests -/
theorem test_witness_ProgramTraceIsConcatenation : (State.launch 2 [[0x0C#8], [0x05#8]]).Ready ∧
    (State.launch 2 [[0x0C#8], [0x05#8]]).host = [[0x0C#8], [0x05#8]].map HostMove.request := by decide

theorem test_witness_InFlightRequestTerminates : configureFlight.Inv ∧ configureFlight.busy = true ∧
    configureFlight.xferStalled = false ∧ configureFlight.hostWaits = true := by decide

/-- for NoopPairChangesNothing, DigitPairsStoreByte, ControlPairsStoreByte, PairFrameCondition, PairBeyondChainFaults -/
theorem test_witness_pair_position : 1 < (State.powerUp 2).len ∧ (State.powerUp 2).len ≤ 2 ∧
    (∃ t, exec (pairInstr 1 0xFF#8 .displayTest) (State.powerUp 2) = .next t) ∧
    exec (pairInstr 2 0xFF#8 .displayTest) (State.powerUp 2) = .fault .noSuchDevice :=
  ⟨by decide, by decide, ⟨_, rfl⟩, rfl⟩

theorem test_witness_LatchesIdempotentAndCommuting : Memory.wf [(0x01, 0x11#8), (0x104, 0x22#8)] ∧ Frame.wf 2 frameS6 ∧
    ¬ (0 = 0 ∧ DevReg.digit0 = DevReg.digit1) := by decide

theorem test_witness_ModesIndependentlyToggled : (∃ t, exec (.shutdown 0 0#8) (State.powerUp 2) = .next t) ∧
    ∃ t, exec (.displayTest 1 1#8) (State.powerUp 2) = .next t := ⟨⟨_, rfl⟩, ⟨_, rfl⟩⟩

/-- the lengths next to the chain's own, and the ends of the range -/
theorem test_witness_ConstructionWithOtherLengthForgetsChain : (idleHost [.reset 1]).Inv ∧ (idleHost [.reset 1]).busy = false ∧
    (idleHost [.reset 1]).host = [.reset 1] ∧ (1 : Nat) ≠ (idleHost [.reset 1]).len ∧
    (idleHost [.reset 8]).host = [.reset 8] ∧ (8 : Nat) ≠ (idleHost [.reset 8]).len := by decide

/-- a decoded digit at the last BCD value and above it, and one that is not decoded -/
theorem test_witness_DigitPairMeaning :
    (∃ t, exec (pairInstr 0 0x0F#8 (digitReg 0)) (chip 1#8 0#8 1#8) = .next t ∧ t.digitMeaning 0 0 = some (.bcd 15#4)) ∧
    (∃ t, exec (pairInstr 0 0x10#8 (digitReg 0)) (chip 1#8 0#8 1#8) = .next t ∧ t.digitMeaning 0 0 = none) ∧
    ∃ t, exec (pairInstr 0 0x5F#8 (digitReg 7)) (chip 1#8 0#8 1#8) = .next t ∧ t.digitMeaning 0 7 = some (.segments 0x5F#8) :=
  ⟨⟨_, rfl, by decide⟩, ⟨_, rfl, by decide⟩, ⟨_, rfl, by decide⟩⟩

end Sys2Proof.Tests
end

section
/-! SUPPORT. The run of a whole plan, frame after frame, and with it the refinement of the transaction level by the event
level (R10, R22, R89). -/

namespace Sys2Proof.Machine

/-! The atomic transmission -/

/-- One burst keeps the FRAMER ready: the strobe is high again and the HOST has not moved. -/
theorem ready_transmit {s : State} (h : s.Ready) (f : Frame) : (s.transmit f).Ready := by
  obtain ⟨hlen, hbusy, ⟨_, hplan, hq, hk⟩, hx, hhost⟩ := h
  exact ⟨hlen, hbusy, ⟨rfl, hplan, hq, hk⟩, hx, hhost⟩

@[simp] theorem State.transmitAll_nil (s : State) : s.transmitAll [] = s := rfl

@[simp] theorem State.transmitAll_cons (f : Frame) (fs : List Frame) (s : State) :
    s.transmitAll (f :: fs) = (s.transmit f).transmitAll fs := rfl

/-- The frames of a request add exactly their bus events to the trace. -/
@[simp] theorem State.transmitAll_trace (fs : List Frame) (s : State) :
    (s.transmitAll fs).trace = s.trace ++ fs.flatMap frameEvents := by
  induction fs generalizing s with
  | nil => simp
  | cons f fs ih => simp [ih, List.append_assoc]

/-- Whole frames for `n` devices make `2*n + 2` bus events each (R131). -/
theorem flatMap_frameEvents_length {n : Nat} {fs : List Frame} (hw : ∀ f ∈ fs, Frame.wf n f) :
    (fs.flatMap frameEvents).length = fs.length * (2 * n + 2) := by
  induction fs with
  | nil => simp
  | cons f fs ih =>
    have hf : f.length = n := (hw f List.mem_cons_self).1
    rw [List.flatMap_cons, List.length_append, frameEvents_length, hf, ih (List.forall_mem_cons.mp hw).2,
      List.length_cons, Nat.add_one_mul fs.length, Nat.add_comm]

/-! The plan at the event level -/

/-- The FRAMER about to send frame `q` of the plan `fs`, in the place of the idle state `s`: `PLAN`, `Q`, `K`, `BUSY` and
the frame buffer as R22 has them between two frames. -/
def State.atFrame (fs : List Frame) (q : Nat) (s : State) : State :=
  { s with busy := true, plan := fs, q := q, k := 0, fb := loadFrame (fs[q]?.getD []) s.fb }

/-- An accepted plan stands at its first frame. -/
theorem State.loadPlan_eq_atFrame (fs : List Frame) (s : State) : s.loadPlan fs = s.atFrame fs 0 := by
  rw [State.loadPlan, State.atFrame, List.head?_eq_getElem?]

/-- The events of frame `q` leave its atomic transmission, and the sequencer where `advance` finds the next one. -/
theorem run_atFrame {s : State} {fs : List Frame} {f : Frame} {q : Nat} (hs : s.Ready) (hf : fs[q]? = some f)
    (hw : Frame.wf s.len f) :
    run (2 * s.len + 2) (s.atFrame fs q) =
      .next (advance { s.transmit f with busy := true, plan := fs, q := q, k := 2 * s.len + 1 }) := by
  obtain ⟨⟨_, h8⟩, _, _, hx, hhost⟩ := hs
  have hwait : (s.atFrame fs q).hostWaits = true := (hostWaits_congr rfl).trans (hostWaits_of_requests hhost)
  have hrun := run_frame (s := s.atFrame fs q) rfl hwait rfl hx hf hw h8
  simpa [State.atFrame, State.transmit, hf, hw.1] using hrun

/-- With another frame in the plan `advance` moves on to it (R22). -/
theorem run_atFrame_next {s : State} {fs : List Frame} {f g : Frame} {q : Nat} (hs : s.Ready) (hf : fs[q]? = some f)
    (hg : fs[q + 1]? = some g) (hw : Frame.wf s.len f) :
    run (2 * s.len + 2) (s.atFrame fs q) = .next ((s.transmit f).atFrame fs (q + 1)) := by
  rw [run_atFrame hs hf hw]
  simp [advance, State.atFrame, hg]

/-- After the last frame `advance` ends the request with status OK (R22). -/
theorem run_atFrame_last {s : State} {fs : List Frame} {f : Frame} {q : Nat} (hs : s.Ready) (hf : fs[q]? = some f)
    (hlast : fs[q + 1]? = none) (hw : Frame.wf s.len f) :
    run (2 * s.len + 2) (s.atFrame fs q) = .next ((s.transmit f).respond .ok) := by
  rw [run_atFrame hs hf hw]
  obtain ⟨_, _, ⟨_, hplan, hq, hk⟩, _⟩ := hs
  simp [advance, State.respond, State.transmit, hlast, hplan, hq, hk]

/-- The frames `rest` still to send of a plan, `sent` gone before them: their run is their atomic transmission and the OK
response (R22, R89). -/
theorem run_restOfPlan (rest : List Frame) (hne : rest ≠ []) (sent : List Frame) {s : State} (hs : s.Ready)
    (hw : ∀ f ∈ rest, Frame.wf s.len f) :
    run (rest.length * (2 * s.len + 2)) (s.atFrame (sent ++ rest) sent.length) =
      .next ((s.transmitAll rest).respond .ok) := by
  induction rest generalizing sent s with
  | nil => exact absurd rfl hne
  | cons f rest ih =>
    obtain ⟨hwf, hwrest⟩ := List.forall_mem_cons.mp hw
    have hf : (sent ++ f :: rest)[sent.length]? = some f := by simp
    cases rest with
    | nil => simpa using run_atFrame_last hs hf (by simp) hwf
    | cons g rest =>
      have hg : (sent ++ f :: g :: rest)[sent.length + 1]? = some g := by simp
      have hrest := ih (List.cons_ne_nil g rest) (sent ++ [f]) (ready_transmit hs f) hwrest
      rw [List.length_cons, Nat.add_one_mul (g :: rest).length, Nat.add_comm, run_add _ _ (run_atFrame_next hs hf hg hwf)]
      simpa using hrest

/-- Every plan of whole frames is delivered from a ready state (R22, R131). -/
theorem delivers_of_wf {s : State} {fs : List Frame} (hs : s.Ready) (hne : fs ≠ []) (hw : ∀ f ∈ fs, Frame.wf s.len f) :
    Delivers s fs := by
  rw [Delivers, State.loadPlan_eq_atFrame]
  exact run_restOfPlan fs hne [] hs hw

/-! One request -/

/-- A request that passed its checks has a frame to send. -/
theorem decodeAndCheck_ne_nil {n : Nat} {req : List Byte} {fs : List Frame} (h : decodeAndCheck n req = .ok fs) :
    fs ≠ [] := by
  rintro rfl
  simpa using (decodeAndCheck_wf h).1

/-- A ready FRAMER stays ready when the HOST's first request is taken from its list. -/
theorem ready_host_tail {s : State} {m : HostMove} {rest : List HostMove} (hs : s.Ready) (hh : s.host = m :: rest) :
    State.Ready { s with host := rest } := by
  obtain ⟨hlen, hbusy, hrest, hx, hhost⟩ := hs
  rw [hh, List.all_cons, Bool.and_eq_true] at hhost
  exact ⟨hlen, hbusy, hrest, hx, hhost.2⟩

/-- The idle FRAMER's step on a waiting request is `decode_and_check`, submitted (R22, R119). -/
theorem step_request {s : State} {req : List Byte} {rest : List HostMove} (hb : s.busy = false)
    (hh : s.host = .request req :: rest) :
    step s = submit (decodeAndCheck s.len req) { s with host := rest } := by
  rw [step, hh]
  simpa [hb] using accept_eq req { s with host := rest }

theorem transaction_of_error {n : Nat} {req : List Byte} {c : Rejection} (h : decodeAndCheck n req = .error c) :
    transaction n req = (.rejected c, []) := by
  rw [transaction, h]

theorem transaction_of_ok {n : Nat} {req : List Byte} {fs : List Frame} (h : decodeAndCheck n req = .ok fs) :
    transaction n req = (.ok, fs.flatMap frameEvents) := by
  rw [transaction, h]

theorem State.transact_of_error {s : State} {req : List Byte} {c : Rejection} (h : decodeAndCheck s.len req = .error c) :
    s.transact req = s.reject c := by
  rw [State.transact, h]

theorem State.transact_of_ok {s : State} {req : List Byte} {fs : List Frame} (h : decodeAndCheck s.len req = .ok fs) :
    s.transact req = (s.transmitAll fs).respond .ok := by
  rw [State.transact, h]

/-- The atomic transaction's trace and status are those of the transaction function (R10). -/
theorem transact_trace_status (req : List Byte) (s : State) :
    (s.transact req).trace = s.trace ++ requestTrace s.len req ∧ (s.transact req).status = (transaction s.len req).1 := by
  cases h : decodeAndCheck s.len req with
  | error c => simp [State.transact_of_error h, requestTrace, transaction_of_error h]
  | ok fs => simp [State.transact_of_ok h, requestTrace, transaction_of_ok h]

/-- The run of one request from a ready state, one step and one more for each bus event, is the atomic transaction (R22). -/
theorem run_request {s : State} {req : List Byte} {rest : List HostMove} (hs : s.Ready)
    (hh : s.host = .request req :: rest) :
    run (1 + (transaction s.len req).2.length) s = .next (State.transact req { s with host := rest }) := by
  have hready : State.Ready { s with host := rest } := ready_host_tail hs hh
  obtain ⟨_, hidle, _⟩ := hs
  have hstep := step_request hidle hh
  cases h : decodeAndCheck s.len req with
  | error c =>
    rw [h, submit_error (s := { s with host := rest }) hidle] at hstep
    rw [transaction_of_error h, State.transact_of_error (s := { s with host := rest }) h]
    exact run_one hstep
  | ok fs =>
    rw [h, submit_ok (s := { s with host := rest }) hidle] at hstep
    have hwf : ∀ f ∈ fs, Frame.wf s.len f := (decodeAndCheck_wf h).2
    rw [transaction_of_ok h, State.transact_of_ok (s := { s with host := rest }) h, run_add 1 _ (run_one hstep),
      flatMap_frameEvents_length hwf]
    exact delivers_of_wf hready (decodeAndCheck_ne_nil h) hwf

/-- Settles O41: a rejected request ends in its accept step, and an accepted one delivers its plan frame by frame, by
induction on the frames still to send. -/
theorem eventLevelRefinesTransaction : Obligations.EventLevelRefinesTransaction := by
  intro s req rest hs hh
  exact ⟨run_request hs hh, transact_trace_status req { s with host := rest }⟩

end Sys2Proof.Machine
end

section
/-! SUPPORT. The FRAMER in flight: where the sequencer stands, and each bus event of a frame as one next state in full (R22,
R31, R39, R40). -/

namespace Sys2Proof.Machine

/-! The frame being sent -/

/-- A busy state that meets the invariant is in flight on a chain of at most 8 devices. -/
theorem State.Inv.inFlight {s : State} (hs : s.Inv) (hb : s.busy = true) : s.InFlight ∧ s.len ≤ 8 := by
  obtain ⟨hlen, _, _, _, hbusy⟩ := hs
  exact ⟨hbusy hb, hlen.2⟩

/-- The sequencer names a frame of the plan (R23 b). -/
theorem State.InFlight.plan_current {s : State} (h : s.InFlight) : s.plan[s.q]? = some s.current := by
  obtain ⟨_, hq, _⟩ := h
  rw [State.current, List.getElem?_eq_getElem hq, Option.getD_some]

/-- The frame being sent is a whole frame of assigned registers (R23 d, R34). -/
theorem State.InFlight.current_wf {s : State} (h : s.InFlight) : Frame.wf s.len s.current := by
  have hmem := List.mem_of_getElem? h.plan_current
  obtain ⟨_, _, hw, _⟩ := h
  exact hw _ hmem

/-- The strobe is low from the first byte on (R23 d). -/
theorem State.InFlight.stb_low {s : State} (h : s.InFlight) (hk : 1 ≤ s.k) : s.stb = .low := by
  obtain ⟨_, _, _, _, hstb, _⟩ := h
  exact hstb.mpr hk

/-- The shift path holds the bytes of the frame sent so far (R39). -/
theorem State.InFlight.shifted_eq {s : State} (h : s.InFlight) (hk : 1 ≤ s.k) :
    s.shifted = (frameBytes s.current).take (s.k - 1) := by
  obtain ⟨_, _, _, _, _, _, hshifted⟩ := h
  exact hshifted hk

/-- Before the strobe rises the shift path holds the whole frame (R39). -/
theorem State.InFlight.shifted_whole {s : State} (h : s.InFlight) (hk : s.k = 2 * s.len + 1) :
    s.shifted = frameBytes s.current := by
  have hlen : (frameBytes s.current).length = 2 * s.len := by rw [frameBytes_length, h.current_wf.1]
  rw [h.shifted_eq (by omega), hk, Nat.add_sub_cancel, ← hlen, List.take_length]

/-! The events of a frame -/

/-- At `K = 0` the strobe falls (R22). -/
theorem send_at_start {s : State} (h : s.InFlight) (hk : s.k = 0) : send s = .next (sendStrobeLow s) := by
  simp [send, h.plan_current, hk]

/-- At `1 <= K <= 2*N` a byte is handed to XFER (R22). -/
theorem send_inside {s : State} (h : s.InFlight) (h1 : 1 ≤ s.k) (h2 : s.k ≤ 2 * s.len) :
    send s = sendByte s.current s := by
  simp [send, h.plan_current, h2, Nat.ne_of_gt h1]

/-- A transfer that completes sends the byte at wire offset `K - 1` (R22, R31). -/
theorem send_byte {s : State} {b : Byte} (h : s.InFlight) (h1 : 1 ≤ s.k) (h2 : s.k ≤ 2 * s.len)
    (hx : s.xferStalled = false) (hb : wireByte s.current (s.k - 1) = some b) :
    send s = .next { s.xfer b (Config.inboundByte s.draws) with k := s.k + 1 } := by
  rw [send_inside h h1 h2]
  simp [sendByte, hb, h.stb_low h1, hx]

/-- The frame being sent has a byte at every wire offset that the sequencer reaches (R31, R34). -/
theorem State.InFlight.exists_wireByte {s : State} (h : s.InFlight) (h1 : 1 ≤ s.k) (h2 : s.k ≤ 2 * s.len) :
    ∃ b, wireByte s.current (s.k - 1) = some b := by
  have hlt : s.k - 1 < (frameBytes s.current).length := by rw [frameBytes_length, h.current_wf.1]; omega
  exact ⟨_, (wireByte_eq _ _).trans (List.getElem?_eq_getElem hlt)⟩

/-- While XFER does not complete, the FRAMER stays at its byte (R107). -/
theorem send_stalled {s : State} (h : s.InFlight) (h1 : 1 ≤ s.k) (h2 : s.k ≤ 2 * s.len) (hx : s.xferStalled = true) :
    send s = .next s := by
  obtain ⟨b, hb⟩ := h.exists_wireByte h1 h2
  rw [send_inside h h1 h2]
  simp [sendByte, hb, h.stb_low h1, hx]

/-- The state between the commit and the sequencer's move: the devices have latched the frame being sent and the strobe has
risen (R22, R40). -/
def State.committed (s : State) : State :=
  { s with mem := s.mem.latchPairs 0 s.current, stb := .high, trace := s.trace ++ [Event.sh] }

/-- At `K = 2*N + 1` the chain commits, the strobe rises and the sequencer moves on (R22, R40). -/
theorem send_at_end {s : State} (h : s.InFlight) (h8 : s.len ≤ 8) (hk : s.k = 2 * s.len + 1) :
    send s = .next (advance s.committed) := by
  have hcommit := commit_frame h8 (h.stb_low (by omega)) (h.shifted_whole hk) h.current_wf
  simp [send, h.plan_current, hk, sendStrobeHigh, hcommit, State.committed, State.setStrobe, State.emit]

/-- The sequencer moves to the next frame of the plan (R22). -/
theorem advance_next {s : State} {f : Frame} (hb : s.busy = true) (hf : s.plan[s.q + 1]? = some f) :
    advance s = s.atFrame s.plan (s.q + 1) := by
  simp [advance, State.atFrame, hf, hb]

/-- After the last frame of the plan the request ends with status OK (R22). -/
theorem advance_last {s : State} (hf : s.plan[s.q + 1]? = none) :
    advance s = { s with plan := [], q := 0, k := 0 }.respond .ok := by
  simp [advance, hf]

/-- The FRAMER in flight always sends, and this is all it can do: the strobe falls, a transfer hangs, a byte goes out, or the
frame is committed (R22). -/
theorem send_cases {s : State} (h : s.InFlight) (h8 : s.len ≤ 8) :
    (s.k = 0 ∧ send s = .next (sendStrobeLow s)) ∨
    (1 ≤ s.k ∧ s.k ≤ 2 * s.len ∧ s.xferStalled = true ∧ send s = .next s) ∨
    (1 ≤ s.k ∧ s.k ≤ 2 * s.len ∧ s.xferStalled = false ∧ ∃ b, wireByte s.current (s.k - 1) = some b ∧
      send s = .next { s.xfer b (Config.inboundByte s.draws) with k := s.k + 1 }) ∨
    (s.k = 2 * s.len + 1 ∧ send s = .next (advance s.committed)) := by
  have hk : s.k ≤ 2 * s.len + 1 := by
    obtain ⟨_, _, _, hk, _⟩ := h
    exact hk
  by_cases h0 : s.k = 0
  · exact .inl ⟨h0, send_at_start h h0⟩
  have h1 : 1 ≤ s.k := Nat.pos_of_ne_zero h0
  by_cases h2 : s.k ≤ 2 * s.len
  · cases hx : s.xferStalled with
    | true => exact .inr (.inl ⟨h1, h2, rfl, send_stalled h h1 h2 hx⟩)
    | false =>
      obtain ⟨b, hb⟩ := h.exists_wireByte h1 h2
      exact .inr (.inr (.inl ⟨h1, h2, rfl, b, hb, send_byte h h1 h2 hx hb⟩))
  · have hend : s.k = 2 * s.len + 1 := by omega
    exact .inr (.inr (.inr ⟨hend, send_at_end h h8 hend⟩))

/-- What the FRAMER's own step can do from a state that meets the invariant: nothing, while it is idle or its transfer hangs,
or one event of the frame being sent (R22, R107). -/
theorem framerStep_next {s t : State} (hs : s.Inv) (h : framerStep s = .next t) :
    t = s ∨ s.busy = true ∧
      (s.k = 0 ∧ t = sendStrobeLow s ∨
      (1 ≤ s.k ∧ s.k ≤ 2 * s.len ∧ ∃ b, wireByte s.current (s.k - 1) = some b ∧
        t = { s.xfer b (Config.inboundByte s.draws) with k := s.k + 1 }) ∨
      s.k = 2 * s.len + 1 ∧ t = advance s.committed) := by
  unfold framerStep at h
  split at h
  case isFalse =>
    cases h
    exact .inl rfl
  case isTrue hb =>
    obtain ⟨hflight, h8⟩ := hs.inFlight hb
    rcases send_cases hflight h8 with
      ⟨h0, hsend⟩ | ⟨_, _, _, hsend⟩ | ⟨h1, h2, _, b, hbyte, hsend⟩ | ⟨hend, hsend⟩ <;>
      rw [hsend] at h <;> cases h
    · exact .inr ⟨hb, .inl ⟨h0, rfl⟩⟩
    · exact .inl rfl
    · exact .inr ⟨hb, .inr (.inl ⟨h1, h2, b, hbyte, rfl⟩)⟩
    · exact .inr ⟨hb, .inr (.inr ⟨hend, rfl⟩)⟩

/-- What a step that answers a next state can be: the FRAMER's own step, after a move that changes only the fields of the
other agents; a request decoded, checked and submitted; or a construction (R22, R113, R119, R121). -/
theorem step_next {s t : State} (h : step s = .next t) :
    (∃ host stalls, framerStep { s with host := host, xferStalled := stalls } = .next t) ∨
    (∃ req rest, submit (decodeAndCheck s.len req) { s with host := rest } = .next t) ∨
    (∃ n rest, s.host = .reset n :: rest ∧ construct n { s with host := rest } = .next t) := by
  unfold step at h
  split at h
  case h_1 => exact .inl ⟨s.host, s.xferStalled, h⟩
  case h_2 rest _ => exact .inl ⟨rest, s.xferStalled, h⟩
  case h_3 stalls rest _ => exact .inl ⟨rest, stalls, h⟩
  case h_4 n rest hhost => exact .inr (.inr ⟨n, rest, hhost, h⟩)
  case h_5 req rest _ => exact .inr (.inl ⟨req, rest, (accept_eq req _).symm.trans h⟩)
  case h_6 req rest _ =>
    split at h
    · exact .inl ⟨s.host, s.xferStalled, h⟩
    · exact .inr (.inl ⟨req, rest, (accept_eq req _).symm.trans h⟩)

/-- A construction that succeeds: the length is legal, the FRAMER is at its reset values, and the devices keep their
registers or have none (R25, R113, R114, R115). -/
theorem construct_next {n : Nat} {s t : State} (h : construct n s = .next t) :
    (1 ≤ n ∧ n ≤ 8) ∧ t = { s with
      len := n, stb := .high, busy := false, status := .ok, plan := [], q := 0, k := 0,
      mem := if s.busy = false ∧ s.stb = .high ∧ n = s.len then s.mem else [] } := by
  unfold construct at h
  split at h
  · exact ⟨‹_›, by simpa using h.symm⟩
  · cases h

end Sys2Proof.Machine
end

section
/-! SUPPORT. Every step keeps the invariant (R14, R18, R19, R23, R28, R29, R39). -/

namespace Sys2Proof.Machine

/-! The register space -/

/-- Forgetting a device leaves the register space inside the address space. -/
theorem Memory.inSpace_forgetDevice {n : Nat} {m : Memory} (h : m.inSpace n) (p : Nat) : (m.forgetDevice p).inSpace n :=
  fun c hc => h c (List.mem_of_mem_filter hc)

/-- A latch of a stored register is a write to its key (R42 to R54). -/
theorem Memory.latch_of_ne_noop {reg : DevReg} (h : reg ≠ .noop) (m : Memory) (p : Nat) (d : Byte) :
    m.latch p reg d = m.write (devAddr p reg.address) d := by
  cases reg with
  | noop => exact absurd rfl h
  | _ => rfl

/-- Only the no-op has the address 0 (R29). -/
theorem DevReg.address_toNat_ne_zero {reg : DevReg} (h : reg ≠ .noop) : reg.address.toNat ≠ 0 := by
  cases reg with
  | noop => exact absurd rfl h
  | _ => decide

/-- A device of the chain latches inside the address space (R28, R29, R41). -/
theorem Memory.inSpace_latch {n p : Nat} {m : Memory} (h : m.inSpace n) (hp : p < n) (reg : DevReg) (d : Byte) :
    (m.latch p reg d).inSpace n := by
  intro c hc
  by_cases hreg : reg = .noop
  · subst hreg
    exact h c hc
  · rw [Memory.latch_of_ne_noop hreg] at hc
    rcases Memory.mem_write hc with rfl | hc
    · have hlt : reg.address.toNat < 256 := reg.address.isLt
      have hdiv : devAddr p reg.address / 256 = p := by unfold devAddr; omega
      have hmod : devAddr p reg.address % 256 = reg.address.toNat := by unfold devAddr; omega
      simp [hdiv, hmod, hp, DevReg.address_toNat_ne_zero hreg]
    · exact h c hc

/-- The devices of the chain latch a frame inside the address space (R28, R40). -/
theorem Memory.inSpace_latchPairs {n p : Nat} {f : Frame} {m : Memory} (h : m.inSpace n) (hp : p + f.length ≤ n) :
    (m.latchPairs p f).inSpace n := by
  induction f generalizing m p with
  | nil => exact h
  | cons c f ih =>
    rw [List.length_cons] at hp
    unfold Memory.latchPairs
    split
    · exact ih (Memory.inSpace_latch h (by omega) _ _) (by omega)
    · exact ih (Memory.inSpace_forgetDevice h _) (by omega)

/-! The two halves of the invariant -/

theorem inv_of_idle {s : State} (hlen : 1 ≤ s.len ∧ s.len ≤ 8) (hwf : s.mem.wf) (hspace : s.mem.inSpace s.len)
    (hb : s.busy = false) (hrest : s.AtRest) : s.Inv :=
  ⟨hlen, hwf, hspace, fun _ => hrest, fun h => by simp [hb] at h⟩

theorem inv_of_busy {s : State} (hlen : 1 ≤ s.len ∧ s.len ≤ 8) (hwf : s.mem.wf) (hspace : s.mem.inSpace s.len)
    (hb : s.busy = true) (hflight : s.InFlight) : s.Inv :=
  ⟨hlen, hwf, hspace, fun h => by simp [hb] at h, fun _ => hflight⟩

/-! Each transition -/

/-- Between two frames the FRAMER is in flight (R18, R19). -/
theorem inFlight_atFrame {s : State} {fs : List Frame} {q : Nat} (h8 : s.len ≤ 8) (hstb : s.stb = .high)
    (hn : fs.length = 1 ∨ fs.length = 5) (hw : ∀ f ∈ fs, Frame.wf s.len f) (hq : q < fs.length) :
    (s.atFrame fs q).InFlight := by
  have hfb : (s.atFrame fs q).fb.toList.take s.len = (s.atFrame fs q).current := by
    have hlen : fs[q].length = s.len := (hw _ (List.getElem_mem hq)).1
    simp only [State.atFrame, State.current, List.getElem?_eq_getElem hq, Option.getD_some]
    rw [← hlen]
    exact loadFrame_take (by omega) s.fb
  exact ⟨hn, hq, hw, Nat.zero_le _, by simp [State.atFrame, hstb], hfb, by simp [State.atFrame]⟩

theorem inFlight_sendStrobeLow {s : State} (h : s.InFlight) : (sendStrobeLow s).InFlight := by
  obtain ⟨hn, hq, hw, _, _, hfb, _⟩ := h
  exact ⟨hn, hq, hw, by simp [sendStrobeLow], by simp [sendStrobeLow], hfb, by simp [sendStrobeLow]⟩

theorem inFlight_byteSent {s : State} {b i : Byte} (h : s.InFlight) (h1 : 1 ≤ s.k) (h2 : s.k ≤ 2 * s.len)
    (hb : wireByte s.current (s.k - 1) = some b) : State.InFlight { s.xfer b i with k := s.k + 1 } := by
  have hshifted : s.shifted ++ [b] = (frameBytes s.current).take s.k := by
    rw [wireByte_eq] at hb
    conv_rhs => rw [← Nat.sub_add_cancel h1, List.take_add_one, hb]
    rw [h.shifted_eq h1, Option.toList_some]
  have hlow := h.stb_low h1
  obtain ⟨hn, hq, hw, _, _, hfb, _⟩ := h
  exact ⟨hn, hq, hw, Nat.succ_le_succ h2, by simp [hlow], hfb, fun _ => hshifted⟩

/-- The commit and the sequencer's move keep the invariant (R22, R40). -/
theorem inv_advance_committed {s : State} (hs : s.Inv) (hb : s.busy = true) : (advance s.committed).Inv := by
  obtain ⟨hlen, hwf, hspace, _, hbusy⟩ := hs
  have hflight := hbusy hb
  have hwf' : s.committed.mem.wf := Memory.wf_latchPairs hwf 0 s.current
  have hspace' : s.committed.mem.inSpace s.len :=
    Memory.inSpace_latchPairs hspace (by rw [hflight.current_wf.1]; omega)
  obtain ⟨hn, _, hw, _⟩ := hflight
  cases hnext : s.plan[s.q + 1]? with
  | none =>
    rw [advance_last (s := s.committed) hnext]
    exact inv_of_idle hlen hwf' hspace' rfl ⟨rfl, rfl, rfl, rfl⟩
  | some f =>
    obtain ⟨hq, _⟩ := List.getElem?_eq_some_iff.mp hnext
    rw [advance_next (s := s.committed) hb hnext]
    exact inv_of_busy hlen hwf' hspace' rfl (inFlight_atFrame hlen.2 rfl hn hw hq)

/-- The FRAMER's own step keeps the invariant (R22). -/
theorem inv_framerStep {s t : State} (hs : s.Inv) (h : framerStep s = .next t) : t.Inv := by
  have hall := hs
  obtain ⟨hlen, hwf, hspace, _, hbusy⟩ := hs
  obtain rfl | ⟨hb, ⟨_, rfl⟩ | ⟨h1, h2, b, hbyte, rfl⟩ | ⟨_, rfl⟩⟩ := framerStep_next hall h
  · exact hall
  · exact inv_of_busy hlen hwf hspace hb (inFlight_sendStrobeLow (hbusy hb))
  · exact inv_of_busy hlen hwf hspace hb (inFlight_byteSent (hbusy hb) h1 h2 hbyte)
  · exact inv_advance_committed hall hb

/-- Accepting or rejecting a request keeps the invariant (R22, R102). -/
theorem inv_submit {s t : State} {req : List Byte} (hs : s.Inv) (h : submit (decodeAndCheck s.len req) s = .next t) :
    t.Inv := by
  obtain ⟨hlen, hwf, hspace, hidle, _⟩ := hs
  obtain ⟨hb, ⟨c, _, rfl⟩ | ⟨fs, hfs, rfl⟩⟩ := submit_next h
  · exact inv_of_idle hlen hwf hspace hb (hidle hb)
  · obtain ⟨hn, hw⟩ := decodeAndCheck_wf hfs
    obtain ⟨hstb, _⟩ := hidle hb
    refine inv_of_busy hlen hwf hspace rfl ?_
    rw [State.loadPlan_eq_atFrame]
    exact inFlight_atFrame hlen.2 hstb hn hw (by omega)

/-- A construction meets the invariant (R113, R115). -/
theorem inv_construct {n : Nat} {s t : State} (hs : s.Inv) (h : construct n s = .next t) : t.Inv := by
  obtain ⟨_, hwf, hspace, _⟩ := hs
  have hwf' : t.mem.wf := construct_mem_wf hwf h
  obtain ⟨hlen, rfl⟩ := construct_next h
  refine inv_of_idle hlen hwf' ?_ rfl ⟨rfl, rfl, rfl, rfl⟩
  show Memory.inSpace n (if _ then _ else _)
  split
  case isTrue hsame =>
    obtain ⟨_, _, rfl⟩ := hsame
    exact hspace
  case isFalse => exact fun _ hc => absurd hc List.not_mem_nil

/-- Settles O10: the FRAMER's own step, a request and a construction each keep the invariant, and a move of the other agents
touches none of its fields. -/
theorem stepKeepsInvariant : Obligations.StepKeepsInvariant := by
  intro s t hs h
  rcases step_next h with ⟨host, stalls, h⟩ | ⟨req, rest, h⟩ | ⟨n, rest, _, h⟩
  · exact inv_framerStep (s := { s with host := host, xferStalled := stalls }) hs h
  · exact inv_submit (s := { s with host := rest }) hs h
  · exact inv_construct (s := { s with host := rest }) hs h

end Sys2Proof.Machine
end

section
/-! SUPPORT. Every step but a construction keeps the trace bracketed (R23 c, R34). -/

namespace Sys2Proof.Machine

/-- The bracket open at the end of the trace, by the sequencer: none between frames, else the bytes sent so far (R22). -/
def State.openBracket (s : State) : Option Nat := if s.k = 0 then none else some (s.k - 1)

theorem State.openBracket_of_zero {s : State} (h : s.k = 0) : s.openBracket = none := if_pos h

theorem State.openBracket_of_succ {s : State} {j : Nat} (h : s.k = j + 1) : s.openBracket = some j := by
  simp [State.openBracket, h]

/-- Scanning goes on from where the part scanned before ends. -/
theorem bracketScan_append {n : Nat} {st st' : Option Nat} {es : List Event} (h : bracketScan n st es = some st')
    (fs : List Event) : bracketScan n st (es ++ fs) = bracketScan n st' fs := by
  induction es generalizing st with
  | nil =>
    cases h
    rfl
  | cons e es ih =>
    rw [List.cons_append, bracketScan]
    rw [bracketScan] at h
    cases hstep : bracketStep n st e with
    | none => simp [hstep] at h
    | some next =>
      rw [hstep] at h
      exact ih h

/-- A state whose new events carry the open bracket of the old one to its own has a bracketed trace. -/
theorem traceBracketed_of_append {s t : State} {es : List Event} (hs : s.TraceBracketed) (hlen : t.len = s.len)
    (htrace : t.trace = s.trace ++ es) (hscan : bracketScan s.len s.openBracket es = some t.openBracket) :
    t.TraceBracketed := by
  rw [State.TraceBracketed, hlen, htrace, bracketScan_append hs]
  exact hscan

/-- After the bytes of a whole frame the strobe-high event closes the bracket, and a response may follow (R23 c). -/
theorem traceBracketed_advance_committed {s : State} (hs : s.TraceBracketed) (hb : s.busy = true)
    (hk : s.k = 2 * s.len + 1) : (advance s.committed).TraceBracketed := by
  have hopen := State.openBracket_of_succ hk
  cases hnext : s.plan[s.q + 1]? with
  | none =>
    rw [advance_last (s := s.committed) hnext]
    refine traceBracketed_of_append (es := [.sh, .resp .ok]) hs rfl (by simp [State.committed]) ?_
    rw [hopen, State.openBracket_of_zero rfl]
    simp [bracketScan, bracketStep]
  | some f =>
    rw [advance_next (s := s.committed) hb hnext]
    refine traceBracketed_of_append (es := [.sh]) hs rfl rfl ?_
    rw [hopen, State.openBracket_of_zero rfl]
    simp [bracketScan, bracketStep]

/-- The FRAMER's own step keeps the trace bracketed (R22, R23 c). -/
theorem traceBracketed_framerStep {s t : State} (hinv : s.Inv) (hs : s.TraceBracketed) (h : framerStep s = .next t) :
    t.TraceBracketed := by
  obtain rfl | ⟨hb, ⟨h0, rfl⟩ | ⟨h1, h2, b, _, rfl⟩ | ⟨hend, rfl⟩⟩ := framerStep_next hinv h
  · exact hs
  · refine traceBracketed_of_append (es := [.sl]) hs rfl rfl ?_
    rw [State.openBracket_of_zero h0, State.openBracket_of_succ (j := 0) rfl]
    rfl
  · obtain ⟨j, hj⟩ : ∃ j, s.k = j + 1 := ⟨s.k - 1, by omega⟩
    have hlt : j < 2 * s.len := by omega
    refine traceBracketed_of_append (es := [.b b]) hs rfl rfl ?_
    rw [State.openBracket_of_succ hj, State.openBracket_of_succ (j := s.k) rfl]
    simp [bracketScan, bracketStep, hlt, hj]
  · exact traceBracketed_advance_committed hs hb hend

/-- A request is accepted or rejected outside a bracket (R22, R23 c). -/
theorem traceBracketed_submit {s t : State} {checked : Except Rejection (List Frame)} (hinv : s.Inv)
    (hs : s.TraceBracketed) (h : submit checked s = .next t) : t.TraceBracketed := by
  obtain ⟨_, _, _, hidle, _⟩ := hinv
  obtain ⟨hb, ⟨c, _, rfl⟩ | ⟨fs, _, rfl⟩⟩ := submit_next h
  all_goals obtain ⟨_, _, _, hk⟩ := hidle hb
  · refine traceBracketed_of_append (es := [.resp (.rejected c)]) hs rfl rfl ?_
    rw [State.openBracket_of_zero hk, State.openBracket_of_zero (s := s.reject c) hk]
    rfl
  · refine traceBracketed_of_append (es := []) hs rfl (by simp) ?_
    rw [State.openBracket_of_zero hk, State.openBracket_of_zero rfl]
    rfl

/-- Settles O11: the new events of the FRAMER's own step and of a request carry the open bracket to that of the next
state. -/
theorem stepKeepsTraceBracketed : Obligations.StepKeepsTraceBracketed := by
  intro s t hinv hs hreset h
  rcases step_next h with ⟨host, stalls, h⟩ | ⟨req, rest, h⟩ | ⟨n, rest, hhost, _⟩
  · exact traceBracketed_framerStep (s := { s with host := host, xferStalled := stalls }) hinv hs h
  · exact traceBracketed_submit (s := { s with host := rest }) hinv hs h
  · simp [State.resetNext, hhost] at hreset

end Sys2Proof.Machine
end

section
/-! SUPPORT. One step in full: the events of a frame, a request's own step, the waiting FRAMER, and the state after a
construction (R21, R22, R25, R31, R40, R102). -/

namespace Sys2Proof.Machine

/-- Settles O15 (the model has the plain name `sendStrobeLow`). -/
theorem sendStrobeLow_next : Obligations.SendStrobeLow := by
  intro s hs hb hk hwait
  rw [step_waiting hb hwait, send_at_start (hs.inFlight hb).1 hk]
  rfl

/-- Settles O16: the byte of the pair at position `(K - 1) / 2` is the one at wire offset `K - 1`. -/
theorem sendByteInWireOrder : Obligations.SendByteInWireOrder := by
  intro s c hs hb h1 h2 hx hwait hc
  rw [step_waiting hb hwait, send_byte (hs.inFlight hb).1 h1 h2 hx (by rw [wireByte, hc, Option.map_some])]
  rfl

/-- Settles O17: the commit, then the two cases of the sequencer's move. -/
theorem sendStrobeHighMovesOn : Obligations.SendStrobeHighMovesOn := by
  intro s hs hb hk hwait
  obtain ⟨hflight, h8⟩ := hs.inFlight hb
  rw [step_waiting hb hwait, send_at_end hflight h8 hk]
  cases hnext : s.plan[s.q + 1]? with
  | none =>
    rw [advance_last (s := s.committed) hnext]
    simp [State.respond, State.committed]
  | some f =>
    rw [advance_next (s := s.committed) hb hnext]
    simp [State.atFrame, State.committed, hnext, hb]

/-- Settles O34: a request is its frames submitted, and that rejects it or loads its plan. -/
theorem requestFrameCondition : Obligations.RequestFrameCondition := by
  intro i s t hi h
  rw [exec_host hi] at h
  obtain ⟨_, ⟨c, _, rfl⟩ | ⟨fs, hfs, rfl⟩⟩ := submit_next h
  · exact ⟨rfl, rfl, rfl, rfl, rfl, rfl, fun _ => rfl, .inr ⟨rfl, rfl, rfl, rfl, rfl, c, rfl, rfl⟩⟩
  · have hlen : (fs.head?.getD []).length ≤ s.len := by
      obtain ⟨_, hw⟩ := frames_wf hfs
      cases fs with
      | nil => exact Nat.zero_le _
      | cons f fs => exact Nat.le_of_eq (hw f List.mem_cons_self).1
    exact ⟨rfl, rfl, rfl, rfl, rfl, rfl, fun _ => rfl,
      .inl ⟨rfl, rfl, rfl, fun p hp => loadFrame_beyond (Nat.le_trans hlen hp)⟩⟩

/-- Settles O40: a rejected request sends no frame, and an accepted one the 1 or 5 frames of its plan. -/
theorem busTraceIsWholeFrames : Obligations.BusTraceIsWholeFrames := by
  intro n req _ h8
  cases h : decodeAndCheck n req with
  | error c =>
    rw [transaction_of_error h]
    exact ⟨[], .inl rfl, by simp, rfl, by simp, by simp⟩
  | ok fs =>
    obtain ⟨hn, hw⟩ := decodeAndCheck_wf h
    have hlen := flatMap_frameEvents_length hw
    have hbound : fs.length * (2 * n + 2) ≤ 90 := by
      rcases hn with hn | hn <;> rw [hn] <;> omega
    rw [transaction_of_ok h]
    exact ⟨fs, .inr hn, hw, rfl, hlen, hlen.trans_le hbound⟩

/-- Settles O13. -/
theorem stepRunsDecodedRequest : Obligations.StepRunsDecodedRequest := by
  intro s req rest i hhost hb hdecode
  rw [step_request hb hhost, exec_host (decode_host_space hdecode), decodeAndCheck, hdecode]

/-- Settles O20. -/
theorem idleFramerWaits : Obligations.IdleFramerWaits := by
  intro s hhost hb
  simp [step, hhost, framerStep, hb]

/-- Settles O22: `State.xfer` takes the inbound byte and does not use it. -/
theorem inboundByteDiscarded : Obligations.InboundByteDiscarded := by
  intro b x y s
  rfl

/-- Settles O5. -/
theorem constructionLeavesFramerIdle : Obligations.ConstructionLeavesFramerIdle := by
  refine ⟨fun n s t h => ?_, fun n => ⟨rfl, rfl, rfl, rfl, rfl, rfl, rfl⟩, Config.chainLength, by decide, by decide, rfl⟩
  obtain ⟨_, rfl⟩ := construct_next h
  exact ⟨rfl, rfl, rfl, rfl, rfl, rfl, rfl⟩

/-- The first machine on a chain of legal length meets the invariant (R25, R26). -/
theorem inv_powerUp {n : Nat} (hn : 1 ≤ n ∧ n ≤ 8) : (State.powerUp n).Inv :=
  inv_of_idle hn List.Pairwise.nil (fun _ hc => absurd hc List.not_mem_nil) rfl ⟨rfl, rfl, rfl, rfl⟩

/-- Settles O9: `State.reset` is the first machine on the chain of `Config.chainLength` devices. -/
theorem resetMeetsInvariant : Obligations.ResetMeetsInvariant :=
  ⟨fun _ h1 h8 => inv_powerUp ⟨h1, h8⟩, inv_powerUp (by decide)⟩

end Sys2Proof.Machine
end

section
/-! SUPPORT. The fourteen pairs as a device executes them: what a pair does to any key of the register space, and with it to the
two modes and the digits (R35, R38, R40 to R55). -/

namespace Sys2Proof.Machine

/-! One pair -/

/-- A device of the chain executes its pair as one latch (R40). -/
theorem exec_pairInstr_inside {p : Nat} {s : State} (h : p < s.len) (reg : DevReg) (d : Byte) :
    exec (pairInstr p d reg) s = .next { s with mem := s.mem.latch p reg d } := by
  rw [exec_pairInstr, latchRegister_inside h]

/-- A pair of a stored register writes its byte to the key of that register (R42 to R54, log 21). -/
theorem exec_pairInstr_stores {p : Nat} {reg : DevReg} {s : State} (h : p < s.len) (hreg : reg ≠ .noop) (d : Byte) :
    exec (pairInstr p d reg) s = .next { s with mem := s.mem.write (p * 256 + reg.address.toNat) d } := by
  rw [exec_pairInstr_inside h, Memory.latch_of_ne_noop hreg, devAddr]

/-- What a latch does to any key, a register's or not: its own takes the byte, unless the pair is the no-op (R40, R41). -/
theorem Memory.read_latch_key (m : Memory) (p : Nat) (reg : DevReg) (d : Byte) (a : Nat) :
    (m.latch p reg d).read a = if a = devAddr p reg.address ∧ reg ≠ .noop then some d else m.read a := by
  by_cases hreg : reg = .noop
  · subst hreg
    simp [Memory.latch]
  rw [Memory.latch_of_ne_noop hreg]
  by_cases ha : a = devAddr p reg.address
  · subst ha
    simp [hreg]
  · rw [Memory.read_write_other m d ha, if_neg (fun h => ha h.1)]

/-- What a pair does to any register of any device (R40 to R54). -/
theorem deviceRegister_of_exec_pair {p : Nat} {d : Byte} {reg : DevReg} {s t : State}
    (h : exec (pairInstr p d reg) s = .next t) (p' : Nat) (reg' : DevReg) :
    t.deviceRegister p' reg' = if p' = p ∧ reg' = reg ∧ reg ≠ .noop then some d else s.deviceRegister p' reg' := by
  obtain ⟨_, rfl⟩ := exec_pair_next h
  exact Memory.read_latch s.mem p p' reg reg' d

/-- Settles O44. -/
theorem noopPairChangesNothing : Obligations.NoopPairChangesNothing := by
  intro p d s h
  exact exec_pairInstr_inside h .noop d

/-- Settles O45. -/
theorem digitPairsStoreByte : Obligations.DigitPairsStoreByte := by
  intro p d s h
  have stores (reg : DevReg) (hreg : reg ≠ .noop) := exec_pairInstr_stores h hreg d
  exact ⟨stores .digit0 (by decide), stores .digit1 (by decide), stores .digit2 (by decide), stores .digit3 (by decide),
    stores .digit4 (by decide), stores .digit5 (by decide), stores .digit6 (by decide), stores .digit7 (by decide)⟩

/-- Settles O46. -/
theorem controlPairsStoreByte : Obligations.ControlPairsStoreByte := by
  intro p d s h
  have stores (reg : DevReg) (hreg : reg ≠ .noop) := exec_pairInstr_stores h hreg d
  exact ⟨stores .decodeMode (by decide), stores .intensity (by decide), stores .scanLimit (by decide),
    stores .shutdown (by decide), stores .displayTest (by decide)⟩

/-- Settles O48. -/
theorem pairBeyondChainFaults : Obligations.PairBeyondChainFaults := by
  intro p d reg s h
  rw [exec_pairInstr, latchRegister_outside h]

/-- Settles O47: a pair is one latch, and a latch is known at every key. -/
theorem pairFrameCondition : Obligations.PairFrameCondition := by
  intro p d reg s t h
  obtain ⟨_, rfl⟩ := exec_pair_next h
  refine ⟨rfl, fun a ha => ?_, ?_⟩
  · rw [Memory.read_latch_key, if_neg (fun hkey => ha hkey.1)]
  · rw [Memory.read_latch_key]
    simp [devAddr, ite_not]

/-! The modes and the digits -/

theorem State.powerMode_congr {s t : State} {p : Nat} (h : t.deviceRegister p .shutdown = s.deviceRegister p .shutdown) :
    t.powerMode p = s.powerMode p := by
  rw [State.powerMode, State.powerMode, h]

theorem State.testMode_congr {s t : State} {p : Nat}
    (h : t.deviceRegister p .displayTest = s.deviceRegister p .displayTest) : t.testMode p = s.testMode p := by
  rw [State.testMode, State.testMode, h]

/-- Settles O50: a mode is a view of one register, and a pair changes its own register only. -/
theorem modesIndependentlyToggled : Obligations.ModesIndependentlyToggled := by
  intro p p' d s t
  refine ⟨fun h => ?_, fun h => ?_⟩
  · have hreg := deviceRegister_of_exec_pair (reg := .shutdown) h
    refine ⟨State.testMode_congr (by simp [hreg]), fun hp => State.powerMode_congr (by simp [hreg, hp]), ?_, ?_⟩
    all_goals
      rintro rfl
      simp [State.powerMode, hreg]
  · have hreg := deviceRegister_of_exec_pair (reg := .displayTest) h
    refine ⟨State.powerMode_congr (by simp [hreg]), fun hp => State.testMode_congr (by simp [hreg, hp]), ?_, ?_⟩
    all_goals
      rintro rfl
      simp [State.testMode, hreg]

theorem digitReg_inj {i j : Fin 8} : digitReg i = digitReg j ↔ i = j := by
  revert i j
  decide

theorem digitReg_ne_noop (i : Fin 8) : digitReg i ≠ .noop := by
  revert i
  decide

theorem digitReg_ne_decodeMode (i : Fin 8) : digitReg i ≠ .decodeMode := by
  revert i
  decide

theorem State.digitMeaning_congr {s t : State} {p : Nat} {i : Fin 8}
    (hdigit : t.deviceRegister p (digitReg i) = s.deviceRegister p (digitReg i))
    (hmode : t.deviceRegister p .decodeMode = s.deviceRegister p .decodeMode) :
    t.digitMeaning p i = s.digitMeaning p i := by
  rw [State.digitMeaning, State.digitMeaning, State.digitDecoded, State.digitDecoded, hdigit, hmode]

/-- What a digit that holds a byte shows, by the DECODE_MODE byte of its device (R42, R50, log 25). -/
theorem State.digitMeaning_of_registers {s : State} {p : Nat} {i : Fin 8} {d mode : Byte}
    (hdigit : s.deviceRegister p (digitReg i) = some d) (hmode : s.deviceRegister p .decodeMode = some mode) :
    s.digitMeaning p i = if mode.getLsbD i.val = false then some (.segments d) else (bcdValue d).map .bcd := by
  rw [State.digitMeaning, State.digitDecoded, hdigit, hmode, Option.map_some]
  cases mode.getLsbD i.val <;> rfl

/-- With DECODE_MODE unwritten no digit has a meaning (log 20). -/
theorem State.digitMeaning_of_mode_none {s : State} {p : Nat} (i : Fin 8)
    (hmode : s.deviceRegister p .decodeMode = none) : s.digitMeaning p i = none := by
  simp [State.digitMeaning, State.digitDecoded, hmode]

/-- Settles O54: the pair stores its digit, and neither DECODE_MODE nor any other digit is touched. -/
theorem digitPairMeaning : Obligations.DigitPairMeaning := by
  intro p i d s t h
  have hreg := deviceRegister_of_exec_pair h
  have hmode (p' : Nat) : t.deviceRegister p' .decodeMode = s.deviceRegister p' .decodeMode := by
    simp [hreg, (digitReg_ne_decodeMode i).symm]
  have hdigit : t.deviceRegister p (digitReg i) = some d := by simp [hreg, digitReg_ne_noop]
  refine ⟨fun mode hm => ?_, fun hm => ?_, fun p' j hj => ?_⟩
  · rw [State.digitMeaning_of_registers hdigit ((hmode p).trans hm), bcdValue, apply_ite (Option.map _)]
    rfl
  · exact State.digitMeaning_of_mode_none i ((hmode p).trans hm)
  · refine State.digitMeaning_congr ?_ (hmode p')
    rw [hreg, if_neg]
    rintro ⟨hp, hd, _⟩
    exact hj ⟨hp, digitReg_inj.mp hd⟩

/-! Frames -/

/-- A frame of assigned registers treats each key in one of two ways, whatever the memory is: it leaves one value there, or it
leaves the key as it was (R40). -/
theorem Memory.latchPairs_sets_or_keeps (a : Nat) (f : Frame) (hf : ∀ c ∈ f, (DevReg.ofAddress c.reg).isSome = true)
    (p : Nat) : (∃ v, ∀ m : Memory, (m.latchPairs p f).read a = v) ∨
      ∀ m : Memory, (m.latchPairs p f).read a = m.read a := by
  induction f generalizing p with
  | nil => exact .inr fun m => by rw [Memory.latchPairs_nil]
  | cons c f ih =>
    obtain ⟨hc, hrest⟩ := List.forall_mem_cons.mp hf
    obtain ⟨reg, hr⟩ := Option.isSome_iff_exists.mp hc
    simp only [Memory.latchPairs_cons hr]
    obtain ⟨v, hsets⟩ | hkeeps := ih hrest (p + 1)
    · exact .inl ⟨v, fun m => hsets _⟩
    · by_cases hkey : a = devAddr p reg.address ∧ reg ≠ .noop
      · exact .inl ⟨some c.data, fun m => by rw [hkeeps, Memory.read_latch_key, if_pos hkey]⟩
      · exact .inr fun m => by rw [hkeeps, Memory.read_latch_key, if_neg hkey]

/-- Sending a frame again changes nothing (R38). -/
theorem Memory.latchPairs_idempotent {m : Memory} {f : Frame} (hm : m.wf)
    (hf : ∀ c ∈ f, (DevReg.ofAddress c.reg).isSome = true) (p : Nat) :
    (m.latchPairs p f).latchPairs p f = m.latchPairs p f := by
  have hwf := Memory.wf_latchPairs hm p f
  refine Memory.ext (Memory.wf_latchPairs hwf p f) hwf fun a => ?_
  obtain ⟨v, hsets⟩ | hkeeps := Memory.latchPairs_sets_or_keeps a f hf p
  · rw [hsets, hsets]
  · exact hkeeps _

/-- Latches of different registers commute (R38). -/
theorem Memory.latch_comm {m : Memory} {p p' : Nat} {r r' : DevReg} (hm : m.wf) (hne : ¬ (p = p' ∧ r = r'))
    (d d' : Byte) : (m.latch p r d).latch p' r' d' = (m.latch p' r' d').latch p r d := by
  have hkeys : devAddr p r.address ≠ devAddr p' r'.address := by
    rwa [Ne, devAddr_inj, DevReg.address_inj]
  refine Memory.ext (Memory.wf_latch (Memory.wf_latch hm _ _ _) _ _ _)
    (Memory.wf_latch (Memory.wf_latch hm _ _ _) _ _ _) fun a => ?_
  simp only [Memory.read_latch_key]
  by_cases ha : a = devAddr p r.address
  · subst ha
    simp [hkeys]
  · simp [ha]

/-- Settles O49. -/
theorem latchesIdempotentAndCommuting : Obligations.LatchesIdempotentAndCommuting :=
  ⟨fun _ _ _ hm ⟨_, hassigned⟩ => Memory.latchPairs_idempotent hm hassigned 0,
    fun _ _ _ _ _ d d' hm hne => Memory.latch_comm hm hne d d'⟩

end Sys2Proof.Machine
end

section
/-! SUPPORT. The commit: each device executes the instruction its pair decodes to, and no other step touches a register (R22,
R40, R63). -/

namespace Sys2Proof.Machine

/-- The register byte of the pair at position `p` stands at wire offset `2*p` (R31). -/
theorem frameBytes_reg (f : Frame) (p : Nat) : (frameBytes f)[2 * p]? = f[p]?.map Pair.reg := by
  rw [← wireByte_eq, wireByte, Nat.mul_div_cancel_left p two_pos]
  simp

/-- The data byte of the pair at position `p` stands at wire offset `2*p + 1` (R31). -/
theorem frameBytes_data (f : Frame) (p : Nat) : (frameBytes f)[2 * p + 1]? = f[p]?.map Pair.data := by
  rw [← wireByte_eq, wireByte, show (2 * p + 1) / 2 = p by omega]
  simp [Nat.add_mod]

/-- The instructions that the devices from position `p` on read from the pairs of a frame (R63); a register byte that is not
assigned, which no whole frame holds, counts as the no-op. -/
def frameInstrs (p : Nat) : Frame → List Instr
  | [] => []
  | c :: f => pairInstr p c.data ((DevReg.ofAddress c.reg).getD .noop) :: frameInstrs (p + 1) f

@[simp] theorem frameInstrs_length (p : Nat) (f : Frame) : (frameInstrs p f).length = f.length := by
  induction f generalizing p with
  | nil => rfl
  | cons c f ih => rw [frameInstrs, List.length_cons, List.length_cons, ih]

theorem frameInstrs_getElem? (p : Nat) (f : Frame) (j : Nat) :
    (frameInstrs p f)[j]? = f[j]?.map fun c => pairInstr (p + j) c.data ((DevReg.ofAddress c.reg).getD .noop) := by
  induction f generalizing p j with
  | nil => rfl
  | cons c f ih =>
    cases j with
    | zero => rfl
    | succ j => rw [frameInstrs, List.getElem?_cons_succ, List.getElem?_cons_succ, ih, Nat.succ_add_eq_add_succ p j]

/-- Each instruction of a frame of assigned registers is what the device at its position decodes its pair to (R63). -/
theorem decode_of_frameInstrs {f : Frame} {p : Nat} {i : Instr} (h8 : f.length ≤ 8)
    (hf : ∀ c ∈ f, (DevReg.ofAddress c.reg).isSome = true) (hi : (frameInstrs 0 f)[p]? = some i) :
    ∃ c, f[p]? = some c ∧ decode (.device p) [c.reg, c.data] = .ok i := by
  rw [frameInstrs_getElem?, Option.map_eq_some_iff] at hi
  obtain ⟨c, hc, rfl⟩ := hi
  obtain ⟨hp, _⟩ := List.getElem?_eq_some_iff.mp hc
  obtain ⟨reg, hr⟩ := Option.isSome_iff_exists.mp (hf c (List.mem_of_getElem? hc))
  refine ⟨c, hc, ?_⟩
  rw [decode_device (by omega) hr, hr, Option.getD_some, Nat.zero_add]

/-- Executing the instructions of a frame one after another latches its pairs (R40). -/
theorem execAll_frameInstrs {f : Frame} {p : Nat} {s : State} (hp : p + f.length ≤ s.len)
    (hf : ∀ c ∈ f, (DevReg.ofAddress c.reg).isSome = true) :
    execAll (frameInstrs p f) s = .next { s with mem := s.mem.latchPairs p f } := by
  induction f generalizing p s with
  | nil => rfl
  | cons c f ih =>
    obtain ⟨hc, hrest⟩ := List.forall_mem_cons.mp hf
    obtain ⟨reg, hr⟩ := Option.isSome_iff_exists.mp hc
    rw [List.length_cons] at hp
    rw [frameInstrs, execAll, hr, Option.getD_some, exec_pairInstr, latchRegister_inside (by omega),
      Memory.latchPairs_cons hr]
    exact ih (s := { s with mem := s.mem.latch p reg c.data }) (by show p + 1 + f.length ≤ s.len; omega) hrest

/-- Settles O14: the shift path holds the frame being sent, and its commit is the execution of the frame's instructions. -/
theorem strobeHighExecutesPairs : Obligations.StrobeHighExecutesPairs := by
  intro s hs hb hk hwait
  obtain ⟨hflight, h8⟩ := hs.inFlight hb
  obtain ⟨hlen, hassigned⟩ := hflight.current_wf
  refine ⟨frameInstrs 0 s.current, { s with mem := s.mem.latchPairs 0 s.current }, ?_, fun p i hi => ?_, ?_, ?_⟩
  · rw [frameInstrs_length, hlen]
  · obtain ⟨c, hc, hdecode⟩ := decode_of_frameInstrs (hlen.trans_le h8) hassigned hi
    refine ⟨c.reg, c.data, ?_, ?_, hdecode⟩
    · rw [hflight.shifted_whole hk, frameBytes_reg, hc, Option.map_some]
    · rw [hflight.shifted_whole hk, frameBytes_data, hc, Option.map_some]
  · exact execAll_frameInstrs (by omega) hassigned
  · rw [step_waiting hb hwait, send_at_end hflight h8 hk]
    rfl

/-- The sequencer's move after a frame touches no device register (R22). -/
@[simp] theorem advance_mem (s : State) : (advance s).mem = s.mem := by
  unfold advance
  split <;> rfl

/-- Away from the strobe-high event the FRAMER's own step touches no device register (R22). -/
theorem framerStep_mem {s t : State} (hs : s.Inv) (hk : ¬ (s.busy = true ∧ s.k = 2 * s.len + 1))
    (h : framerStep s = .next t) : t.mem = s.mem := by
  obtain rfl | ⟨hb, ⟨_, rfl⟩ | ⟨_, _, _, _, rfl⟩ | ⟨hend, _⟩⟩ := framerStep_next hs h
  · rfl
  · rfl
  · rfl
  · exact absurd ⟨hb, hend⟩ hk

/-- Accepting or rejecting a request touches no device register (R22, R102). -/
theorem submit_mem {checked : Except Rejection (List Frame)} {s t : State} (h : submit checked s = .next t) :
    t.mem = s.mem := by
  obtain ⟨_, ⟨_, _, rfl⟩ | ⟨_, _, rfl⟩⟩ := submit_next h <;> rfl

/-- Settles O18: the commit latches the frame that the shift path holds; no other event, no request and no move of the other
agents touches the register space. -/
theorem commitLatchesEveryDevice : Obligations.CommitLatchesEveryDevice := by
  refine ⟨fun s t hs hb hk hwait h p r d reg _ hr hd => ?_, fun s t hs hk hreset h a => ?_⟩
  · obtain ⟨hflight, h8⟩ := hs.inFlight hb
    obtain ⟨_, hassigned⟩ := hflight.current_wf
    rw [step_waiting hb hwait, send_at_end hflight h8 hk] at h
    cases h
    rw [hflight.shifted_whole hk, frameBytes_reg, Option.map_eq_some_iff] at hr
    obtain ⟨c, hc, rfl⟩ := hr
    rw [hflight.shifted_whole hk, frameBytes_data, hc, Option.map_some, Option.some_inj] at hd
    subst hd
    rw [State.deviceRegister, advance_mem, State.committed, Memory.read_latchPairs _ _ _ hassigned,
      if_pos (Nat.zero_le p), Nat.sub_zero, hc]
    rfl
  · have hmem : t.mem = s.mem := by
      rcases step_next h with ⟨host, stalls, h⟩ | ⟨req, rest, h⟩ | ⟨n, rest, hhost, _⟩
      · exact framerStep_mem (s := { s with host := host, xferStalled := stalls }) hs hk h
      · exact submit_mem (s := { s with host := rest }) h
      · simp [State.resetNext, hhost] at hreset
    rw [hmem]

end Sys2Proof.Machine
end

section
/-! SUPPORT. The run of a whole program, request after request (R27, R56). -/

namespace Sys2Proof.Machine

/-- Sending frames keeps the FRAMER ready, on the same chain and with the same moves to come. -/
theorem ready_transmitAll {s : State} (h : s.Ready) (fs : List Frame) :
    (s.transmitAll fs).Ready ∧ (s.transmitAll fs).len = s.len ∧ (s.transmitAll fs).host = s.host := by
  induction fs generalizing s with
  | nil => exact ⟨h, rfl, rfl⟩
  | cons f fs ih => exact ih (ready_transmit h f)

/-- An atomic transaction leaves the FRAMER ready, on the same chain and with the same moves to come (R10, R22, R103). -/
theorem ready_transact {s : State} (h : s.Ready) (req : List Byte) :
    (s.transact req).Ready ∧ (s.transact req).len = s.len ∧ (s.transact req).host = s.host := by
  cases hcheck : decodeAndCheck s.len req with
  | error c =>
    rw [State.transact_of_error hcheck]
    exact ⟨h, rfl, rfl⟩
  | ok fs =>
    rw [State.transact_of_ok hcheck]
    obtain ⟨⟨hlen, _, hrest, hx, hhost⟩, hkeeps⟩ := ready_transmitAll h fs
    exact ⟨⟨hlen, rfl, hrest, hx, hhost⟩, hkeeps⟩

/-- Settles O42, by induction on the program: the run of the first request ends in a ready state with the rest to come. -/
theorem programTraceIsConcatenation : Obligations.ProgramTraceIsConcatenation := by
  intro program
  induction program with
  | nil =>
    intro s hs hhost
    obtain ⟨_, hbusy, ⟨hstb, _⟩, _⟩ := hs
    exact ⟨0, s, run_zero s, hhost, hbusy, hstb, by simp⟩
  | cons req program ih =>
    intro s hs hhost
    have hready : State.Ready { s with host := program.map .request } := ready_host_tail hs hhost
    obtain ⟨hready', hlen, hhost'⟩ := ready_transact hready req
    obtain ⟨htrace, _⟩ := transact_trace_status req { s with host := program.map .request }
    obtain ⟨k, t, hrun, hdone, hbusy, hstb, hprogram⟩ := ih _ hready' hhost'
    refine ⟨_, t, (run_add _ k (run_request hs hhost)).trans hrun, hdone, hbusy, hstb, ?_⟩
    rw [hprogram, htrace, hlen, List.flatMap_cons, List.append_assoc]

end Sys2Proof.Machine
end

section
/-! SUPPORT. The encoding (R62, R63, R68 to R73): what each part of the decoder accepts, as one equivalence with the encoder, and
from these that decoder and encoder are inverse to each other and which requests are well formed. -/

namespace Sys2Proof.Machine

/-! The operand pairs of WRITE_ALL -/

/-- `decodeCommands` accepts exactly the bytes of commands, and answers these commands (R68, R70). -/
theorem decodeCommands_ok_iff {bytes : List Byte} {cmds : List Command} :
    decodeCommands bytes = .ok cmds ↔ bytes = encodeCommands cmds := by
  constructor
  · intro h
    induction bytes using decodeCommands.induct generalizing cmds with
    | case1 => cases h; rfl
    | case2 b => cases h
    | case3 r d rest hr => simp [decodeCommands, hr] at h
    | case4 r d rest reg hr e he => simp [decodeCommands, hr, he] at h
    | case5 r d rest reg hr cmds' hrest ih =>
      simp only [decodeCommands, hr, hrest, Except.ok.injEq] at h
      subst h
      rw [encodeCommands, ← ih hrest, DevReg.address_of_ofAddress hr]
  · rintro rfl
    induction cmds with
    | nil => rfl
    | cons c cmds ih => simp [encodeCommands, decodeCommands, ih]

/-- The register byte of the `j`-th command of WRITE_ALL stands at offset `2*j` of its pairs (R70). -/
theorem encodeCommands_reg (cmds : List Command) (j : Nat) :
    (encodeCommands cmds)[2 * j]? = cmds[j]?.map fun c => c.reg.address := by
  induction cmds generalizing j with
  | nil => rfl
  | cons c cmds ih =>
    cases j with
    | zero => rfl
    | succ j => exact ih j

/-- Bytes whose length is even and whose register bytes are assigned are the bytes of commands (R68, R70). -/
theorem exists_eq_encodeCommands {n : Nat} {bytes : List Byte} (hlen : bytes.length = 2 * n)
    (hreg : ∀ j r, bytes[2 * j]? = some r → (DevReg.ofAddress r).isSome = true) :
    ∃ cmds, bytes = encodeCommands cmds := by
  induction n generalizing bytes with
  | zero => exact ⟨[], List.length_eq_zero_iff.mp hlen⟩
  | succ n ih =>
    match bytes, hlen with
    | r :: d :: rest, hlen =>
      obtain ⟨reg, hr⟩ := Option.isSome_iff_exists.mp (hreg 0 r rfl)
      obtain ⟨cmds, rfl⟩ := ih (by simpa [Nat.mul_succ] using hlen) fun j => hreg (j + 1)
      exact ⟨⟨reg, d⟩ :: cmds, by rw [encodeCommands, DevReg.address_of_ofAddress hr]⟩

/-- A `cnt` byte that fits the pairs after it is their number, and the number is one the byte can hold (R71, R72). -/
theorem count_of_encodeCommands_length {cmds : List Command} {cnt : Byte}
    (h : (encodeCommands cmds).length = 2 * cnt.toNat) : countOk cmds = true ∧ BitVec.ofNat 8 cmds.length = cnt := by
  have hcnt : cmds.length = cnt.toNat := by
    rw [Laws.encodeCommands_length] at h
    omega
  rw [countOk, hcnt]
  exact ⟨decide_eq_true cnt.isLt, by simp⟩

/-! The bodies of the requests -/

theorem decodeConfigure_ok_iff {operands : List Byte} {i : Instr} :
    decodeConfigure operands = .ok i ↔ ∃ dc iv, operands = [dc, iv] ∧ i = .configure dc iv := by
  constructor
  · intro h
    unfold decodeConfigure at h
    split at h
    · exact ⟨_, _, rfl, by simpa using h.symm⟩
    · cases h
  · rintro ⟨dc, iv, rfl, rfl⟩
    rfl

theorem decodeRQ1_ok_iff {mk : Byte → Instr} {operands : List Byte} {i : Instr} :
    decodeRQ1 mk operands = .ok i ↔ ∃ a, operands = [a] ∧ i = mk a := by
  constructor
  · intro h
    unfold decodeRQ1 at h
    split at h
    · exact ⟨_, rfl, by simpa using h.symm⟩
    · cases h
  · rintro ⟨a, rfl, rfl⟩
    rfl

theorem decodeRQ0_ok_iff {request : Instr} {operands : List Byte} {i : Instr} :
    decodeRQ0 request operands = .ok i ↔ operands = [] ∧ i = request := by
  constructor
  · intro h
    unfold decodeRQ0 at h
    split at h
    · exact ⟨rfl, by simpa using h.symm⟩
    · cases h
  · rintro ⟨rfl, rfl⟩
    rfl

theorem decodeWriteOne_ok_iff {operands : List Byte} {i : Instr} :
    decodeWriteOne operands = .ok i ↔ ∃ idx reg d, operands = [idx, DevReg.address reg, d] ∧ i = .writeOne idx reg d := by
  constructor
  · intro h
    unfold decodeWriteOne at h
    split at h
    · split at h
      · cases h
      · rename_i reg hr
        exact ⟨_, reg, _, by rw [DevReg.address_of_ofAddress hr], by simpa using h.symm⟩
    · cases h
  · rintro ⟨idx, reg, d, rfl, rfl⟩
    simp [decodeWriteOne]

theorem decodeWriteSame_ok_iff {operands : List Byte} {i : Instr} :
    decodeWriteSame operands = .ok i ↔ ∃ reg d, operands = [DevReg.address reg, d] ∧ i = .writeSame reg d := by
  constructor
  · intro h
    unfold decodeWriteSame at h
    split at h
    · split at h
      · cases h
      · rename_i reg hr
        exact ⟨reg, _, by rw [DevReg.address_of_ofAddress hr], by simpa using h.symm⟩
    · cases h
  · rintro ⟨reg, d, rfl, rfl⟩
    simp [decodeWriteSame]

/-- The `cnt` byte of WRITE_ALL counts the pairs that follow it, so there are at most 255 (R70, R71). -/
theorem decodeWriteAll_ok_iff {operands : List Byte} {i : Instr} :
    decodeWriteAll operands = .ok i ↔ ∃ cmds, countOk cmds = true ∧
      operands = BitVec.ofNat 8 cmds.length :: encodeCommands cmds ∧ i = .writeAll cmds := by
  constructor
  · intro h
    unfold decodeWriteAll at h
    split at h
    · cases h
    · rename_i cnt rest
      split at h
      · rename_i hlen
        split at h
        · cases h
        · rename_i cmds hcmds
          rw [decodeCommands_ok_iff] at hcmds
          subst hcmds
          obtain ⟨hcount, hcnt⟩ := count_of_encodeCommands_length hlen
          exact ⟨cmds, hcount, by rw [hcnt], by simpa using h.symm⟩
      · cases h
  · rintro ⟨cmds, hcount, rfl, rfl⟩
    have hlt : cmds.length < 256 := of_decide_eq_true hcount
    rw [decodeWriteAll, Laws.encodeCommands_length, BitVec.toNat_ofNat, Nat.mod_eq_of_lt hlt, if_pos rfl,
      decodeCommands_ok_iff.mpr rfl]

/-! The opcodes -/

/-- The eleven assigned opcodes, and the reserved ones (R70, R73). -/
theorem opcode_cases (op : Byte) :
    op = 0x01#8 ∨ op = 0x02#8 ∨ op = 0x03#8 ∨ op = 0x04#8 ∨ op = 0x05#8 ∨ op = 0x06#8 ∨ op = 0x07#8 ∨ op = 0x08#8 ∨
    op = 0x09#8 ∨ op = 0x0A#8 ∨ op = 0x0B#8 ∨ op.toNat = 0 ∨ 0x0B < op.toNat := by
  bv_omega

theorem decode_reservedOpcode {op : Byte} (h : op.toNat = 0 ∨ 0x0B < op.toNat) (operands : List Byte) :
    decode .host (op :: operands) = .error .reservedOpcode := by
  rw [decode, decodeRequest]
  split
  case h_12 => rfl
  all_goals omega

theorem requestLength_reservedOpcode {op : Byte} (h : op.toNat = 0 ∨ 0x0B < op.toNat) (operands : List Byte) :
    requestLength op operands = none := by
  rw [requestLength]
  split
  case h_12 => rfl
  all_goals omega

/-! Requests -/

theorem decode_encode_request {i : Instr} (hspace : i.space = .host) (hwf : i.wellFormed = true) :
    decode .host (encode i) = .ok i := by
  cases i with
  | configure | setScanLimit | setIntensity | setDecodeMode | enterShutdown | exitShutdown | enterDisplayTest
  | exitDisplayTest => rfl
  | writeOne idx reg data => exact decodeWriteOne_ok_iff.mpr ⟨idx, reg, data, rfl, rfl⟩
  | writeAll cmds => exact decodeWriteAll_ok_iff.mpr ⟨cmds, hwf, rfl, rfl⟩
  | writeSame reg data => exact decodeWriteSame_ok_iff.mpr ⟨reg, data, rfl, rfl⟩
  | _ => cases hspace

theorem encode_of_decodeRQ1 {mk : Byte → Instr} {op : Byte} {operands : List Byte} {i : Instr}
    (hmk : ∀ a, encode (mk a) = [op, a] ∧ (mk a).wellFormed = true) (h : decodeRQ1 mk operands = .ok i) :
    encode i = op :: operands ∧ i.wellFormed = true := by
  obtain ⟨a, rfl, rfl⟩ := decodeRQ1_ok_iff.mp h
  exact hmk a

theorem encode_of_decodeRQ0 {request : Instr} {op : Byte} {operands : List Byte} {i : Instr}
    (hrequest : encode request = [op] ∧ request.wellFormed = true) (h : decodeRQ0 request operands = .ok i) :
    encode i = op :: operands ∧ i.wellFormed = true := by
  obtain ⟨rfl, rfl⟩ := decodeRQ0_ok_iff.mp h
  exact hrequest

theorem encode_decode_request {bytes : List Byte} {i : Instr} (h : decode .host bytes = .ok i) :
    encode i = bytes ∧ i.wellFormed = true := by
  match bytes with
  | [] => cases h
  | op :: operands =>
    obtain rfl | rfl | rfl | rfl | rfl | rfl | rfl | rfl | rfl | rfl | rfl | hreserved := opcode_cases op
    · obtain ⟨dc, iv, rfl, rfl⟩ := decodeConfigure_ok_iff.mp h
      exact ⟨rfl, rfl⟩
    · exact encode_of_decodeRQ1 (fun _ => ⟨rfl, rfl⟩) h
    · exact encode_of_decodeRQ1 (fun _ => ⟨rfl, rfl⟩) h
    · exact encode_of_decodeRQ1 (fun _ => ⟨rfl, rfl⟩) h
    · exact encode_of_decodeRQ0 ⟨rfl, rfl⟩ h
    · exact encode_of_decodeRQ0 ⟨rfl, rfl⟩ h
    · exact encode_of_decodeRQ0 ⟨rfl, rfl⟩ h
    · exact encode_of_decodeRQ0 ⟨rfl, rfl⟩ h
    · obtain ⟨idx, reg, d, rfl, rfl⟩ := decodeWriteOne_ok_iff.mp h
      exact ⟨rfl, rfl⟩
    · obtain ⟨cmds, hcount, rfl, rfl⟩ := decodeWriteAll_ok_iff.mp h
      exact ⟨rfl, hcount⟩
    · obtain ⟨reg, d, rfl, rfl⟩ := decodeWriteSame_ok_iff.mp h
      exact ⟨rfl, rfl⟩
    · rw [decode_reservedOpcode hreserved] at h
      cases h

/-! Pairs -/

@[simp] theorem encode_pairInstr (p : Nat) (d : Byte) (reg : DevReg) : encode (pairInstr p d reg) = [reg.address, d] := by
  cases reg <;> rfl

@[simp] theorem wellFormed_pairInstr (p : Nat) (d : Byte) (reg : DevReg) :
    (pairInstr p d reg).wellFormed = positionOk p := by
  cases reg <;> rfl

/-! Both spaces -/

/-- Settles O1: a request by the equivalence of its body's decoder with the encoder, a pair by its register's address. -/
theorem decodeInvertsEncode : Obligations.DecodeInvertsEncode := by
  intro i hwf
  cases hspace : i.space with
  | host => exact decode_encode_request hspace hwf
  | device p =>
    obtain ⟨d, reg, rfl⟩ := eq_pairInstr_of_space hspace
    rw [wellFormed_pairInstr] at hwf
    rw [encode_pairInstr, decode_device (of_decide_eq_true hwf) (DevReg.ofAddress_address reg)]

/-- Settles O2: each opcode's body decoder accepts nothing but encodings, and so does the pair decoder. -/
theorem encodeInvertsDecode : Obligations.EncodeInvertsDecode := by
  intro space bytes i h
  cases space with
  | host =>
    obtain ⟨hencode, hwf⟩ := encode_decode_request h
    exact ⟨hencode, decode_host_space h, hwf⟩
  | device p =>
    obtain ⟨r, d, reg, rfl, hp, hr, rfl⟩ := decode_device_ok h
    refine ⟨?_, space_pairInstr p d reg, ?_⟩
    · rw [encode_pairInstr, DevReg.address_of_ofAddress hr]
    · rw [wellFormed_pairInstr]
      exact decide_eq_true hp

/-- Settles O3: each word is the encoding of its instruction. -/
theorem specWordsDecode : Obligations.SpecWordsDecode :=
  ⟨decodeInvertsEncode (.writeOne 1#8 .digit3 0x5F#8) rfl,
    decodeInvertsEncode (.writeAll [⟨.digit0, 0x11#8⟩, ⟨.digit1, 0x22#8⟩]) rfl,
    decodeInvertsEncode (.writeSame .shutdown 0x01#8) rfl,
    decodeInvertsEncode (.setScanLimit 4#8) rfl,
    decodeInvertsEncode (.setIntensity 255#8) rfl,
    decodeInvertsEncode (.configure 8#8 0#8) rfl,
    decodeInvertsEncode .enterShutdown rfl,
    decodeInvertsEncode (.digit3 1 0x5F#8) rfl,
    decodeInvertsEncode (.displayTest 0 0x01#8) rfl⟩

/-- Settles O51, from the wire offsets of the pairs' bytes. -/
theorem frameWireFormat : Obligations.FrameWireFormat := by
  refine fun f => ⟨rfl, frameBytes_length f, frameEvents_length f, fun p c hc => ⟨?_, ?_⟩⟩
  · rw [frameBytes_reg, hc, Option.map_some]
  · rw [frameBytes_data, hc, Option.map_some]

/-! Well-formed requests -/

theorem exists_decodeConfigure (operands : List Byte) :
    (∃ i, decodeConfigure operands = .ok i) ↔ operands.length = 2 := by
  simp only [decodeConfigure_ok_iff, List.length_eq_two]
  exact ⟨fun ⟨_, dc, iv, h, _⟩ => ⟨dc, iv, h⟩, fun ⟨dc, iv, h⟩ => ⟨_, dc, iv, h, rfl⟩⟩

theorem exists_decodeRQ1 (mk : Byte → Instr) (operands : List Byte) :
    (∃ i, decodeRQ1 mk operands = .ok i) ↔ operands.length = 1 := by
  simp only [decodeRQ1_ok_iff, List.length_eq_one_iff]
  exact ⟨fun ⟨_, a, h, _⟩ => ⟨a, h⟩, fun ⟨a, h⟩ => ⟨_, a, h, rfl⟩⟩

theorem exists_decodeRQ0 (request : Instr) (operands : List Byte) :
    (∃ i, decodeRQ0 request operands = .ok i) ↔ operands.length = 0 := by
  simp [decodeRQ0_ok_iff]

theorem exists_decodeWriteOne (operands : List Byte) :
    (∃ i, decodeWriteOne operands = .ok i) ↔
      operands.length = 3 ∧ ∀ r, operands[1]? = some r → (DevReg.ofAddress r).isSome = true := by
  simp only [decodeWriteOne_ok_iff]
  constructor
  · rintro ⟨_, idx, reg, d, rfl, _⟩
    simp
  · rintro ⟨hlen, hreg⟩
    obtain ⟨idx, r, d, rfl⟩ := List.length_eq_three.mp hlen
    obtain ⟨reg, hr⟩ := Option.isSome_iff_exists.mp (hreg r rfl)
    exact ⟨_, idx, reg, d, by rw [DevReg.address_of_ofAddress hr], rfl⟩

theorem exists_decodeWriteSame (operands : List Byte) :
    (∃ i, decodeWriteSame operands = .ok i) ↔
      operands.length = 2 ∧ ∀ r, operands[0]? = some r → (DevReg.ofAddress r).isSome = true := by
  simp only [decodeWriteSame_ok_iff]
  constructor
  · rintro ⟨_, reg, d, rfl, _⟩
    simp
  · rintro ⟨hlen, hreg⟩
    obtain ⟨r, d, rfl⟩ := List.length_eq_two.mp hlen
    obtain ⟨reg, hr⟩ := Option.isSome_iff_exists.mp (hreg r rfl)
    exact ⟨_, reg, d, by rw [DevReg.address_of_ofAddress hr], rfl⟩

theorem exists_decodeWriteAll (operands : List Byte) :
    (∃ i, decodeWriteAll operands = .ok i) ↔
      requestLength 0x0A#8 operands = some (operands.length + 1) ∧
      ∀ j r, operands[1 + 2 * j]? = some r → (DevReg.ofAddress r).isSome = true := by
  simp only [decodeWriteAll_ok_iff]
  constructor
  · rintro ⟨_, cmds, hcount, rfl, _⟩
    obtain ⟨op, operands, he, hlen⟩ := Laws.EncodingShape.writeAll cmds hcount
    cases he
    refine ⟨hlen, fun j r hr => ?_⟩
    rw [Nat.add_comm, List.getElem?_cons_succ, encodeCommands_reg, Option.map_eq_some_iff] at hr
    obtain ⟨c, _, rfl⟩ := hr
    simp
  · rintro ⟨hlen, hreg⟩
    match operands with
    | [] => cases hlen
    | cnt :: rest =>
      have hrest : rest.length = 2 * cnt.toNat := by
        have : 2 + 2 * cnt.toNat = rest.length + 1 + 1 := by simpa [requestLength] using hlen
        omega
      obtain ⟨cmds, rfl⟩ := exists_eq_encodeCommands hrest fun j r hr =>
        hreg j r (by rwa [Nat.add_comm, List.getElem?_cons_succ])
      obtain ⟨hcount, hcnt⟩ := count_of_encodeCommands_length hrest
      exact ⟨_, cmds, hcount, by rw [hcnt], rfl⟩

/-- What makes a request legal before its decoder is asked: the length its opcode and `cnt` require, and an assigned register
at every `reg` operand (R68, R72, R73). -/
def RequestLegal (op : Byte) (operands : List Byte) : Prop :=
  requestLength op operands = some (operands.length + 1) ∧
    (op = 0x09#8 → ∀ r, operands[1]? = some r → (DevReg.ofAddress r).isSome = true) ∧
    (op = 0x0B#8 → ∀ r, operands[0]? = some r → (DevReg.ofAddress r).isSome = true) ∧
    (op = 0x0A#8 → ∀ j r, operands[1 + 2 * j]? = some r → (DevReg.ofAddress r).isSome = true)

theorem length_iff_requestLength {op : Byte} {operands : List Byte} {n : Nat} (h : requestLength op operands = some (n + 1)) :
    operands.length = n ↔ requestLength op operands = some (operands.length + 1) := by
  rw [h, Option.some_inj, Nat.add_right_cancel_iff, eq_comm]

/-- An opcode without `reg` operands asks for its number of operand bytes only (R72). -/
theorem requestLegal_of_no_register {op : Byte} {operands : List Byte} {n : Nat}
    (hop : op ≠ 0x09#8 ∧ op ≠ 0x0B#8 ∧ op ≠ 0x0A#8) (hlen : requestLength op operands = some (n + 1)) :
    operands.length = n ↔ RequestLegal op operands := by
  obtain ⟨hone, hsame, hall⟩ := hop
  rw [length_iff_requestLength hlen]
  simp [RequestLegal, hone, hsame, hall]

theorem decode_request_iff_legal (op : Byte) (operands : List Byte) :
    (∃ i, decode .host (op :: operands) = .ok i) ↔ RequestLegal op operands := by
  obtain rfl | rfl | rfl | rfl | rfl | rfl | rfl | rfl | rfl | rfl | rfl | hreserved := opcode_cases op
  · exact (exists_decodeConfigure operands).trans (requestLegal_of_no_register (by decide) rfl)
  · exact (exists_decodeRQ1 _ operands).trans (requestLegal_of_no_register (by decide) rfl)
  · exact (exists_decodeRQ1 _ operands).trans (requestLegal_of_no_register (by decide) rfl)
  · exact (exists_decodeRQ1 _ operands).trans (requestLegal_of_no_register (by decide) rfl)
  · exact (exists_decodeRQ0 _ operands).trans (requestLegal_of_no_register (by decide) rfl)
  · exact (exists_decodeRQ0 _ operands).trans (requestLegal_of_no_register (by decide) rfl)
  · exact (exists_decodeRQ0 _ operands).trans (requestLegal_of_no_register (by decide) rfl)
  · exact (exists_decodeRQ0 _ operands).trans (requestLegal_of_no_register (by decide) rfl)
  · refine (exists_decodeWriteOne operands).trans ?_
    rw [length_iff_requestLength (op := 0x09#8) rfl]
    simp [RequestLegal]
  · exact (exists_decodeWriteAll operands).trans (by simp [RequestLegal])
  · refine (exists_decodeWriteSame operands).trans ?_
    rw [length_iff_requestLength (op := 0x0B#8) rfl]
    simp [RequestLegal]
  · simp [RequestLegal, decode_reservedOpcode hreserved, requestLength_reservedOpcode hreserved]

/-- Settles O4, opcode by opcode. -/
theorem requestWellFormedExactly : Obligations.RequestWellFormedExactly :=
  ⟨nofun, decode_request_iff_legal⟩

end Sys2Proof.Machine
end

section
/-! SUPPORT. The expansions of the requests (R76): an encoded request is the frames of its instruction, so two requests with the
same frames agree in status and bus trace. -/

namespace Sys2Proof.Machine

/-- `decode_and_check` of an encoded request is the check of its instruction (R73, R89). -/
theorem decodeAndCheck_encode {i : Instr} (hspace : i.space = .host) (hwf : i.wellFormed = true) (n : Nat) :
    decodeAndCheck n (encode i) = frames n i := by
  rw [decodeAndCheck, decode_encode_request hspace hwf]

/-- An encoded request that passes its checks answers OK and sends its frames (R89). -/
theorem transaction_encode_of_frames {n : Nat} {i : Instr} {fs : List Frame} (hspace : i.space = .host)
    (hwf : i.wellFormed = true) (h : frames n i = .ok fs) : transaction n (encode i) = (.ok, fs.flatMap frameEvents) :=
  transaction_of_ok ((decodeAndCheck_encode hspace hwf n).trans h)

/-- A request whose one frame is `same(r, d)` is WRITE_SAME `r`, `d` (R76, R92). -/
theorem transaction_eq_writeSame {n : Nat} {i : Instr} {r : DevReg} {d : Byte} (hspace : i.space = .host)
    (hwf : i.wellFormed = true) (h : frames n i = .ok [sameFrame n ⟨r, d⟩]) :
    transaction n (encode i) = transaction n (encode (.writeSame r d)) :=
  (transaction_encode_of_frames hspace hwf h).trans (transaction_encode_of_frames rfl rfl rfl).symm

/-- A request whose one frame holds the pairs of `n` commands is WRITE_ALL of these commands (R76, R91). -/
theorem transaction_eq_writeAll {n : Nat} {i : Instr} {cmds : List Command} (hn : n ≤ 8) (hlen : cmds.length = n)
    (hspace : i.space = .host) (hwf : i.wellFormed = true) (h : frames n i = .ok [cmds.map commandPair]) :
    transaction n (encode i) = transaction n (encode (.writeAll cmds)) := by
  have hcount : (Instr.writeAll cmds).wellFormed = true := decide_eq_true (by omega)
  have hall : frames n (.writeAll cmds) = .ok [cmds.map commandPair] := if_pos hlen
  rw [transaction_encode_of_frames hspace hwf h, transaction_encode_of_frames rfl hcount hall]

/-- The clamp of SET_INTENSITY is `min(v, 15)` (R82). -/
theorem clampIntensity_eq_min (v : Byte) : clampIntensity v = BitVec.ofNat 8 (min v.toNat 15) := by
  unfold clampIntensity
  split
  · rw [min_eq_left ‹_›, BitVec.ofNat_toNat, BitVec.setWidth_eq]
  · rw [min_eq_right (by omega)]

/-- `same(r, d)` holds the pairs of `n` equal commands (R92). -/
theorem sameFrame_eq_map (n : Nat) (c : Command) : sameFrame n c = (List.replicate n c).map commandPair :=
  List.map_replicate.symm

/-- `one(idx, r, d)` holds the pairs of the command and of no-ops with data 0 (R66, R90). -/
theorem oneFrame_eq_map (n idx : Nat) (c : Command) :
    oneFrame n idx c = ((List.range n).map fun p => if p = idx then c else ⟨.noop, 0x00#8⟩).map commandPair := by
  rw [List.map_map, oneFrame]
  refine List.map_congr_left fun p _ => ?_
  by_cases hp : p = idx
  · simp [hp]
  · simp [hp, commandPair, noopPair, DevReg.address]

/-- The five frames of CONFIGURE with a legal digit count (R79, R80). -/
theorem frames_configure {n : Nat} {dc iv : Byte} (h : 1 ≤ dc.toNat ∧ dc.toNat ≤ 8) :
    frames n (.configure dc iv) = .ok [sameFrame n ⟨.displayTest, 0x00#8⟩, sameFrame n ⟨.scanLimit, dc - 1#8⟩,
      sameFrame n ⟨.intensity, clampIntensity (substituteZero iv)⟩, sameFrame n ⟨.decodeMode, 0xFF#8⟩,
      sameFrame n ⟨.shutdown, 0x01#8⟩] :=
  if_pos (decide_eq_true h)

/-- Settles O38: each request has the frames of its expansion. -/
theorem expansionsAgree : Obligations.ExpansionsAgree := by
  intro n _ hn tr
  refine ⟨fun m => transaction_eq_writeSame rfl rfl rfl, fun v => transaction_eq_writeSame rfl rfl ?_,
    fun m => transaction_eq_writeSame rfl rfl rfl, transaction_eq_writeSame rfl rfl rfl,
    transaction_eq_writeSame rfl rfl rfl, transaction_eq_writeSame rfl rfl rfl, transaction_eq_writeSame rfl rfl rfl,
    fun r d => transaction_eq_writeAll hn (by simp) rfl rfl ?_, fun i r d hi => transaction_eq_writeAll hn (by simp) rfl rfl ?_,
    fun dc iv h1 h8 => ?_⟩
  · rw [← clampIntensity_eq_min]
    rfl
  · rw [← sameFrame_eq_map]
    rfl
  · rw [← oneFrame_eq_map]
    exact if_pos hi
  · simp only [tr]
    rw [transaction_encode_of_frames rfl rfl (frames_configure ⟨h1, h8⟩),
      transaction_encode_of_frames (i := .exitDisplayTest) rfl rfl rfl,
      transaction_encode_of_frames (i := .setScanLimit dc) rfl rfl rfl,
      transaction_encode_of_frames (i := .setIntensity _) rfl rfl rfl,
      transaction_encode_of_frames (i := .setDecodeMode 8#8) rfl rfl rfl,
      transaction_encode_of_frames (i := .exitShutdown) rfl rfl rfl]
    simp [substituteZero, scanLimitData, decodePattern]

end Sys2Proof.Machine
end

section
/-! SUPPORT. A request that passes its checks, from acceptance to the response, what a frame of equal pairs leaves in the devices,
and with both CONFIGURE (R79, R80). -/

namespace Sys2Proof.Machine

/-! A request that passes its checks -/

/-- A ready FRAMER accepts a request that passes its checks, and delivers its frames (R22, R89). -/
theorem accepts_delivers_of_frames {i : Instr} {s : State} {fs : List Frame} (hspace : i.space = .host) (hs : s.Ready)
    (h : frames s.len i = .ok fs) : Accepts i s fs ∧ Delivers s fs := by
  obtain ⟨hcount, hwf⟩ := frames_wf h
  have hne : fs ≠ [] := by
    rintro rfl
    simp at hcount
  refine ⟨?_, delivers_of_wf hs hne hwf⟩
  obtain ⟨_, hidle, _⟩ := hs
  rw [Accepts, exec_host hspace, h, submit_ok hidle]
  rfl

/-- The run of a request that passes its checks: one step to accept it and `2*N + 2` for each frame (R22, R131). -/
theorem run_request_of_ok {s : State} {req : List Byte} {rest : List HostMove} {fs : List Frame} (hs : s.Ready)
    (hh : s.host = .request req :: rest) (h : decodeAndCheck s.len req = .ok fs) :
    run (1 + fs.length * (2 * s.len + 2)) s =
      .next ((State.transmitAll fs { s with host := rest }).respond .ok) := by
  have hrun := run_request hs hh
  rwa [transaction_of_ok h, flatMap_frameEvents_length (decodeAndCheck_wf h).2,
    State.transact_of_ok (s := { s with host := rest }) h] at hrun

/-! The devices after a frame of equal pairs -/

@[simp] theorem State.deviceRegister_respond (st : Status) (s : State) (p : Nat) (reg : DevReg) :
    (s.respond st).deviceRegister p reg = s.deviceRegister p reg := rfl

/-- After `same(r, d)` every device holds `d` in register `r`, unless it is the no-op, and no other register has changed (R40,
R41, R92). -/
theorem State.deviceRegister_transmit_sameFrame {n p : Nat} (hp : p < n) (c : Command) (s : State) (reg : DevReg) :
    (s.transmit (sameFrame n c)).deviceRegister p reg =
      if reg = c.reg ∧ reg ≠ .noop then some c.data else s.deviceRegister p reg := by
  have hpair : (sameFrame n c)[p]? = some (commandPair c) := by simp [sameFrame, hp]
  rw [State.deviceRegister, State.transmit_mem, Memory.read_latchPairs _ _ _ (sameFrame_wf n c).2, if_pos (Nat.zero_le p),
    Nat.sub_zero, hpair]
  simp only [commandPair, DevReg.address_inj, eq_comm (a := c.reg), State.deviceRegister]

/-! CONFIGURE -/

/-- The scan-limit byte of CONFIGURE does not wrap for a digit count that is not zero (R79). -/
theorem byte_sub_one_of_pos {b : Byte} (h : 1 ≤ b.toNat) : b - 1#8 = BitVec.ofNat 8 (b.toNat - 1) := by
  bv_omega

/-- The intensity byte of CONFIGURE: zero replaced, the others clamped (R79, R88). -/
theorem clampIntensity_substituteZero (iv : Byte) : clampIntensity (substituteZero iv) =
    if iv.toNat = 0 then Config.intensityDefault else BitVec.ofNat 8 (min iv.toNat 15) := by
  have hzero : iv = 0#8 ↔ iv.toNat = 0 := by simp [BitVec.toNat_eq]
  simp only [substituteZero, hzero]
  split
  · rfl
  · exact clampIntensity_eq_min iv

/-- The five frames of CONFIGURE with their data bytes as R79 writes them. -/
theorem frames_configure_data {n : Nat} {dc iv : Byte} (h : 1 ≤ dc.toNat ∧ dc.toNat ≤ 8) :
    frames n (.configure dc iv) = .ok [sameFrame n ⟨.displayTest, 0x00#8⟩,
      sameFrame n ⟨.scanLimit, BitVec.ofNat 8 (dc.toNat - 1)⟩,
      sameFrame n ⟨.intensity, if iv.toNat = 0 then Config.intensityDefault else BitVec.ofNat 8 (min iv.toNat 15)⟩,
      sameFrame n ⟨.decodeMode, 0xFF#8⟩, sameFrame n ⟨.shutdown, 0x01#8⟩] := by
  rw [frames_configure h, byte_sub_one_of_pos h.1, clampIntensity_substituteZero]

/-- A digit register is none of the five control registers (R29). -/
theorem digitReg_ne_control (i : Fin 8) : digitReg i ≠ .displayTest ∧ digitReg i ≠ .scanLimit ∧
    digitReg i ≠ .intensity ∧ digitReg i ≠ .decodeMode ∧ digitReg i ≠ .shutdown := by
  revert i
  decide

/-- Settles O23: the frames of R79 pass the checks. -/
theorem configureSendsFiveFrames : Obligations.ConfigureSendsFiveFrames := by
  intro s dc iv hs h1 h8
  exact accepts_delivers_of_frames rfl hs (frames_configure_data ⟨h1, h8⟩)

/-- Settles O24: each of the five frames sets its own register of every device and leaves the rest. -/
theorem configureSetsControlRegisters : Obligations.ConfigureSetsControlRegisters := by
  intro s dc iv rest hs hh h1 h8
  have hcheck := (decodeAndCheck_encode (i := .configure dc iv) rfl rfl s.len).trans (frames_configure_data ⟨h1, h8⟩)
  refine ⟨_, run_request_of_ok hs hh hcheck, rfl, rfl, rfl, fun p hp => ?_⟩
  have hsame := State.deviceRegister_transmit_sameFrame hp
  simp only [State.deviceRegister_respond, State.transmitAll_cons, State.transmitAll_nil, hsame]
  refine ⟨by simp, by simp, by simp, by simp, by simp, fun i => ?_⟩
  simp only [digitReg_ne_control, false_and, if_false]
  rfl

end Sys2Proof.Machine
end

section
/-! SUPPORT. The seven feature setters: the arithmetic that turns an operand into its data byte (R88 a to d), and what a request
whose one frame is `same(r, d)` does from acceptance to the device registers (R81 to R87). -/

namespace Sys2Proof.Machine

/-! The data bytes -/

/-- The wrap of `n - 1`, as the addition of 255 (R81, R88 a). -/
theorem scanLimitData_eq_ofNat (n : Byte) : scanLimitData n = BitVec.ofNat 8 ((n.toNat + 255) % 256) := by
  unfold scanLimitData
  bv_omega

theorem clampIntensity_toNat (v : Byte) : (clampIntensity v).toNat = min v.toNat 15 := by
  rw [clampIntensity_eq_min, BitVec.toNat_ofNat]
  omega

@[simp] theorem substituteZero_zero : substituteZero 0#8 = Config.intensityDefault := if_pos rfl

theorem substituteZero_of_ne_zero {v : Byte} (h : v ≠ 0#8) : substituteZero v = v := if_neg h

/-- The table of R83, its three equal rows as one range. -/
theorem decodePattern_eq_table (n : Byte) : decodePattern n =
    if n.toNat = 1 then 0x01#8
    else if 2 ≤ n.toNat ∧ n.toNat ≤ 4 then 0x0F#8
    else if n.toNat = 8 then 0xFF#8
    else 0x00#8 := by
  unfold decodePattern
  split
  case h_6 h1 h2 h3 h4 h8 =>
    rw [imp_false] at h2 h3 h4
    rw [if_neg h1, if_neg (by omega), if_neg h8]
  all_goals simp [*]

/-- The table of R83, row by row. -/
theorem decodePattern_eq_rows (n : Byte) : decodePattern n =
    if n = 1#8 then 0x01#8
    else if n = 2#8 ∨ n = 3#8 ∨ n = 4#8 then 0x0F#8
    else if n = 8#8 then 0xFF#8
    else 0x00#8 := by
  have hrange : (2 ≤ n.toNat ∧ n.toNat ≤ 4) ↔ (n.toNat = 2 ∨ n.toNat = 3 ∨ n.toNat = 4) := by omega
  rw [decodePattern_eq_table]
  simp only [hrange, BitVec.toNat_eq, BitVec.reduceToNat]

/-- Settles O52. -/
theorem byteArithmetic : Obligations.ByteArithmetic := by
  intro v
  refine ⟨?_, clampIntensity_toNat v, substituteZero_of_ne_zero, substituteZero_zero, ?_, decodePattern_eq_rows v⟩
  · rw [scanLimitData_eq_ofNat, BitVec.toNat_ofNat, Nat.mod_mod]
  · rw [clampIntensity_toNat, substituteZero, apply_ite BitVec.toNat]

/-! A setter, from acceptance to the devices -/

/-- A request whose one frame is `same(r, d)` is accepted by a ready FRAMER and delivered, and leaves `d` in register `r` of every
device and the other registers as they were (R40, R89, R92). -/
theorem accepts_delivers_writes_of_sameFrame {i : Instr} {s : State} {r : DevReg} {d : Byte} (hspace : i.space = .host)
    (hr : r ≠ .noop) (hs : s.Ready) (h : frames s.len i = .ok [sameFrame s.len ⟨r, d⟩]) :
    Accepts i s [sameFrame s.len ⟨r, d⟩] ∧ Delivers s [sameFrame s.len ⟨r, d⟩] ∧
      ∀ p reg, p < s.len → (s.transmitAll [sameFrame s.len ⟨r, d⟩]).deviceRegister p reg =
        if reg = r then some d else s.deviceRegister p reg := by
  obtain ⟨haccepts, hdelivers⟩ := accepts_delivers_of_frames hspace hs h
  refine ⟨haccepts, hdelivers, fun p reg hp => ?_⟩
  have hstored : reg = r ∧ reg ≠ .noop ↔ reg = r := and_iff_left_of_imp fun e => e ▸ hr
  simp only [State.transmitAll_cons, State.transmitAll_nil, State.deviceRegister_transmit_sameFrame hp, hstored]

/-! The setters with an operand -/

/-- Settles O25. -/
theorem setScanLimitWritesEveryDevice : Obligations.SetScanLimitWritesEveryDevice := by
  intro n
  refine ⟨decode_encode_request (i := .setScanLimit n) rfl rfl, fun s hs => ?_⟩
  rw [← scanLimitData_eq_ofNat]
  exact accepts_delivers_writes_of_sameFrame (i := .setScanLimit n) rfl (by decide) hs rfl

/-- Settles O26. -/
theorem setIntensityWritesEveryDevice : Obligations.SetIntensityWritesEveryDevice := by
  intro v
  refine ⟨decode_encode_request (i := .setIntensity v) rfl rfl, fun s hs => ?_⟩
  rw [← clampIntensity_eq_min]
  exact accepts_delivers_writes_of_sameFrame (i := .setIntensity v) rfl (by decide) hs rfl

/-- Settles O27. -/
theorem setDecodeModeWritesEveryDevice : Obligations.SetDecodeModeWritesEveryDevice := by
  intro n
  refine ⟨decode_encode_request (i := .setDecodeMode n) rfl rfl, fun s hs => ?_⟩
  rw [← decodePattern_eq_table]
  exact accepts_delivers_writes_of_sameFrame (i := .setDecodeMode n) rfl (by decide) hs rfl

/-! The setters of the two modes -/

theorem State.powerMode_of_register {s : State} {p : Nat} {d : Byte} (h : s.deviceRegister p .shutdown = some d) :
    s.powerMode p = if d = 0#8 then some .shutdown else if d = 1#8 then some .normal else none := by
  rw [State.powerMode, h]

theorem State.testMode_of_register {s : State} {p : Nat} {d : Byte} (h : s.deviceRegister p .displayTest = some d) :
    s.testMode p = if d = 1#8 then some .test else if d = 0#8 then some .normal else none := by
  rw [State.testMode, h]

/-- Settles O28. -/
theorem shutdownSettersWriteEveryDevice : Obligations.ShutdownSettersWriteEveryDevice := by
  refine ⟨decode_encode_request (i := .enterShutdown) rfl rfl, decode_encode_request (i := .exitShutdown) rfl rfl, ?_⟩
  intro s hs off on
  obtain ⟨acceptsOff, deliversOff, writesOff⟩ :=
    accepts_delivers_writes_of_sameFrame (i := .enterShutdown) rfl (by decide) hs rfl
  obtain ⟨acceptsOn, deliversOn, writesOn⟩ :=
    accepts_delivers_writes_of_sameFrame (i := .exitShutdown) rfl (by decide) hs rfl
  exact ⟨acceptsOff, deliversOff, acceptsOn, deliversOn, fun p hp =>
    ⟨State.powerMode_of_register (writesOff p .shutdown hp), State.powerMode_of_register (writesOn p .shutdown hp),
      fun reg hreg => ⟨(writesOff p reg hp).trans (if_neg hreg), (writesOn p reg hp).trans (if_neg hreg)⟩⟩⟩

/-- Settles O29. -/
theorem displayTestSettersWriteEveryDevice : Obligations.DisplayTestSettersWriteEveryDevice := by
  refine ⟨decode_encode_request (i := .enterDisplayTest) rfl rfl, decode_encode_request (i := .exitDisplayTest) rfl rfl, ?_⟩
  intro s hs on off
  obtain ⟨acceptsOn, deliversOn, writesOn⟩ :=
    accepts_delivers_writes_of_sameFrame (i := .enterDisplayTest) rfl (by decide) hs rfl
  obtain ⟨acceptsOff, deliversOff, writesOff⟩ :=
    accepts_delivers_writes_of_sameFrame (i := .exitDisplayTest) rfl (by decide) hs rfl
  exact ⟨acceptsOn, deliversOn, acceptsOff, deliversOff, fun p hp =>
    ⟨State.testMode_of_register (writesOn p .displayTest hp), State.testMode_of_register (writesOff p .displayTest hp),
      fun reg hreg => ⟨(writesOn p reg hp).trans (if_neg hreg), (writesOff p reg hp).trans (if_neg hreg)⟩⟩⟩

end Sys2Proof.Machine
end

section
/-! SUPPORT. The frame primitives WRITE_ONE, WRITE_ALL and WRITE_SAME (R90 to R92): the pair that each frame holds at a position, and
what the device there latches from it. -/

namespace Sys2Proof.Machine

/-! What a device latches from the pair of a command -/

/-- A register that is set and is not the no-op: the register asked for and the one commanded are the same (R41). -/
theorem eq_and_ne_noop_iff {reg r : DevReg} : reg = r ∧ reg ≠ .noop ↔ reg = r ∧ r ≠ .noop :=
  and_congr_right fun h => by rw [h]

/-- A device that stands at the pair of a command takes its data, unless it is the no-op, and keeps its other registers (R40,
R41). -/
theorem State.deviceRegister_transmit_command {f : Frame} {p : Nat} {c : Command}
    (hf : ∀ c ∈ f, (DevReg.ofAddress c.reg).isSome = true) (hc : f[p]? = some (commandPair c)) (s : State) (reg : DevReg) :
    (s.transmit f).deviceRegister p reg =
      if reg = c.reg ∧ reg ≠ .noop then some c.data else s.deviceRegister p reg := by
  rw [State.deviceRegister, State.transmit_mem, Memory.read_latchPairs _ _ _ hf, if_pos (Nat.zero_le p), Nat.sub_zero, hc]
  simp only [commandPair, DevReg.address_inj, eq_comm (a := c.reg), State.deviceRegister]

/-! WRITE_ONE -/

/-- `one(idx, r, d)` holds the pair of the command at `idx` and the padding pair elsewhere (R66, R90). -/
theorem oneFrame_getElem? {n p : Nat} (hp : p < n) (idx : Nat) (c : Command) :
    (oneFrame n idx c)[p]? = some (if p = idx then commandPair c else noopPair) := by
  simp [oneFrame, hp]

/-- A frame of `n` pairs that holds the command at `idx` and the padding pair elsewhere is `one(idx, r, d)` (R90). -/
theorem eq_oneFrame {n idx : Nat} {c : Command} {f : Frame} (hlen : f.length = n)
    (hf : ∀ p a, f[p]? = some a → a = if p = idx then commandPair c else noopPair) : f = oneFrame n idx c := by
  refine List.ext_getElem (hlen.trans (oneFrame_wf n idx c).1.symm) fun p hp _ => ?_
  rw [hf p f[p] (List.getElem?_eq_getElem hp)]
  simp [oneFrame]

/-- After `one(idx, r, d)` register `r` of device `idx` holds `d`, unless it is the no-op, and no other register of any device has
changed (R40, R41, R90). -/
theorem State.deviceRegister_transmit_oneFrame {n p : Nat} (hp : p < n) (idx : Nat) (c : Command) (s : State)
    (reg : DevReg) : (s.transmit (oneFrame n idx c)).deviceRegister p reg =
      if p = idx ∧ reg = c.reg ∧ c.reg ≠ .noop then some c.data else s.deviceRegister p reg := by
  have hpair := oneFrame_getElem? hp idx c
  have hassigned := (oneFrame_wf n idx c).2
  by_cases hidx : p = idx
  · rw [if_pos hidx] at hpair
    rw [State.deviceRegister_transmit_command hassigned hpair]
    simp only [hidx, true_and]
    exact if_congr eq_and_ne_noop_iff rfl rfl
  · rw [if_neg hidx] at hpair
    rw [State.deviceRegister_transmit_command (c := ⟨.noop, 0x00#8⟩) hassigned hpair, if_neg (fun h => h.2 h.1),
      if_neg (fun h => hidx h.1)]

/-- WRITE_ONE with an index of the chain passes its check (R90). -/
theorem frames_writeOne {n : Nat} {idx : Byte} (h : idx.toNat < n) (reg : DevReg) (data : Byte) :
    frames n (.writeOne idx reg data) = .ok [oneFrame n idx.toNat ⟨reg, data⟩] := if_pos h

/-- Settles O30: the frame described is `one(idx, r, d)`, which passes the checks. -/
theorem writeOneSendsPaddedFrame : Obligations.WriteOneSendsPaddedFrame := by
  intro s idx reg data f hs hidx hlen hf
  obtain rfl : f = oneFrame s.len idx.toNat ⟨reg, data⟩ := eq_oneFrame hlen hf
  exact accepts_delivers_of_frames rfl hs (frames_writeOne hidx reg data)

/-- Settles O31: the run of the request is one burst of `one(idx, r, d)`, and that burst changes this one register. -/
theorem writeOneChangesOneRegister : Obligations.WriteOneChangesOneRegister := by
  intro s idx reg data rest hs hidx hh
  have hcheck := (decodeAndCheck_encode (i := .writeOne idx reg data) rfl rfl s.len).trans (frames_writeOne hidx reg data)
  have hrun := run_request_of_ok hs hh hcheck
  rw [List.length_singleton, Nat.one_mul] at hrun
  refine ⟨_, hrun, rfl, fun p reg' hp => ?_⟩
  rw [State.deviceRegister_respond, State.transmitAll_cons, State.transmitAll_nil,
    State.deviceRegister_transmit_oneFrame hp]
  rfl

/-! WRITE_ALL and WRITE_SAME -/

/-- Settles O32: the pair at position `p` of the frame is the `p`-th command's, and device `p` latches it. -/
theorem writeAllSendsGivenFrame : Obligations.WriteAllSendsGivenFrame := by
  intro s cmds hs hlen fs
  have hframes : frames s.len (.writeAll cmds) = .ok fs := if_pos hlen
  obtain ⟨haccepts, hdelivers⟩ := accepts_delivers_of_frames rfl hs hframes
  obtain ⟨_, hassigned⟩ := (frames_wf hframes).2 (cmds.map commandPair) (List.mem_singleton_self _)
  refine ⟨haccepts, hdelivers, fun p c reg hc => ?_⟩
  have hpair : (cmds.map commandPair)[p]? = some (commandPair c) := by rw [List.getElem?_map, hc, Option.map_some]
  exact State.deviceRegister_transmit_command hassigned hpair s reg

/-- Settles O33: WRITE_SAME passes the checks whatever its operands are, and its one frame is `same(r, d)`. -/
theorem writeSameSendsSameFrame : Obligations.WriteSameSendsSameFrame := by
  intro s reg data hs fs
  obtain ⟨haccepts, hdelivers⟩ := accepts_delivers_of_frames (i := .writeSame reg data) (fs := fs) rfl hs rfl
  exact ⟨haccepts, hdelivers, fun p reg' hp =>
    (State.deviceRegister_transmit_sameFrame hp ⟨reg, data⟩ s reg').trans (if_congr eq_and_ne_noop_iff rfl rfl)⟩

end Sys2Proof.Machine
end

section
/-! SUPPORT. Rejections and the ways a step can stop (R94 to R107): which request is rejected for which cause, what a rejection
does, and that only a discourteous HOST stops the machine. -/

namespace Sys2Proof.Machine

/-! What a HOST can stop -/

/-- The FRAMER's own step goes through from every state that meets the invariant (R22). -/
theorem exists_framerStep_next {s : State} (hs : s.Inv) : ∃ t, framerStep s = .next t := by
  unfold framerStep
  split
  case isTrue hb =>
    obtain ⟨hflight, h8⟩ := hs.inFlight hb
    rcases send_cases hflight h8 with ⟨_, h⟩ | ⟨_, _, _, h⟩ | ⟨_, _, _, _, _, h⟩ | ⟨_, h⟩ <;> exact ⟨_, h⟩
  case isFalse => exact ⟨s, rfl⟩

/-- An idle FRAMER accepts or rejects whatever it is asked (R22, R105). -/
theorem exists_accept_next (req : List Byte) {s : State} (hb : s.busy = false) : ∃ t, accept req s = .next t := by
  rw [accept_eq]
  cases decodeAndCheck s.len req with
  | error c => exact ⟨_, submit_error hb⟩
  | ok fs => exact ⟨_, submit_ok hb⟩

/-- Settles O12, by the HOST's next move: a courteous one leaves the FRAMER to its own step or asks it while it is idle. -/
theorem courteousHostNeverStops : Obligations.CourteousHostNeverStops := by
  intro s hs hcourteous
  unfold step
  cases hhost : s.host with
  | nil => exact exists_framerStep_next hs
  | cons move rest =>
    rw [hhost, List.all_cons, Bool.and_eq_true] at hcourteous
    obtain ⟨hmove, _⟩ := hcourteous
    cases move with
    | letRun => exact exists_framerStep_next (s := { s with host := rest }) hs
    | bus stalls => exact exists_framerStep_next (s := { s with host := rest, xferStalled := stalls }) hs
    | request req =>
      cases hb : s.busy with
      | true => exact exists_framerStep_next hs
      | false => exact exists_accept_next req rfl
    | requestNow | reset => cases hmove

/-- Settles O19: every request is submitted, and a busy FRAMER takes none. -/
theorem requestWhileBusyFaults : Obligations.RequestWhileBusyFaults := by
  intro s req rest hhost hb
  rw [step, hhost]
  exact (accept_eq req _).trans (submit_busy hb)

/-- A state that steps to itself is never left. -/
theorem run_of_step_self {s : State} (h : step s = .next s) (n : Nat) : run n s = .next s := by
  induction n with
  | zero => exact run_zero s
  | succ n ih => rw [run_succ n h, ih]

/-- Settles O21: the byte step of a stalled transfer answers the state it started from. -/
theorem stalledTransferHangs : Obligations.StalledTransferHangs := by
  intro s hs hb h1 h2 hx hwait
  obtain ⟨hflight, _⟩ := hs.inFlight hb
  exact ⟨hflight.stb_low h1, run_of_step_self ((step_waiting hb hwait).trans (send_stalled hflight h1 h2 hx))⟩

/-! The causes of a rejection -/

/-- Why a decoded request is rejected on a chain of `n` devices (R95, R96, R97). -/
def RejectedFor (n : Nat) (i : Instr) (c : Rejection) : Prop :=
  (c = .invalidConfiguration ∧ ∃ dc iv, i = .configure dc iv ∧ (dc.toNat < 1 ∨ 8 < dc.toNat)) ∨
  (c = .invalidDeviceIndex ∧ ∃ idx reg data, i = .writeOne idx reg data ∧ n ≤ idx.toNat) ∨
  (c = .frameLengthMismatch ∧ ∃ cmds, i = .writeAll cmds ∧ cmds.length ≠ n)

/-- A device pair is no request, so nothing rejects it. -/
theorem RejectedFor.space {n : Nat} {i : Instr} {c : Rejection} (h : RejectedFor n i c) : i.space = .host := by
  rcases h with ⟨_, _, _, rfl, _⟩ | ⟨_, _, _, _, rfl, _⟩ | ⟨_, _, rfl, _⟩ <;> rfl

/-- CONFIGURE is rejected for its digit count only (R79, R95). -/
theorem framesConfigure_error_iff {n : Nat} {dc iv : Byte} {c : Rejection} :
    framesConfigure n dc iv = .error c ↔ c = .invalidConfiguration ∧ (dc.toNat < 1 ∨ 8 < dc.toNat) := by
  by_cases h : 1 ≤ dc.toNat ∧ dc.toNat ≤ 8
  · rw [framesConfigure, digitCountOk, decide_eq_true h, if_pos rfl]
    exact iff_of_false nofun fun ⟨_, hout⟩ => by omega
  · have hout : dc.toNat < 1 ∨ 8 < dc.toNat := by omega
    rw [framesConfigure, digitCountOk, decide_eq_false h, and_iff_left hout]
    simp [eq_comm]

/-- WRITE_ONE is rejected for its index only (R90, R96). -/
theorem framesWriteOne_error_iff {n : Nat} {idx : Byte} {reg : DevReg} {data : Byte} {c : Rejection} :
    framesWriteOne n idx reg data = .error c ↔ c = .invalidDeviceIndex ∧ n ≤ idx.toNat := by
  by_cases h : idx.toNat < n
  · simp [framesWriteOne, h]
  · simp [framesWriteOne, h, Nat.not_lt.mp h, eq_comm]

/-- WRITE_ALL is rejected for its count only (R91, R97). -/
theorem framesWriteAll_error_iff {n : Nat} {cmds : List Command} {c : Rejection} :
    framesWriteAll n cmds = .error c ↔ c = .frameLengthMismatch ∧ cmds.length ≠ n := by
  by_cases h : cmds.length = n
  · simp [framesWriteAll, h]
  · simp [framesWriteAll, h, eq_comm]

/-- The checks of `decode_and_check` after decoding: three requests have one, the others none (R95 to R97, R99). -/
theorem frames_error_iff {n : Nat} {i : Instr} {c : Rejection} (hspace : i.space = .host) :
    frames n i = .error c ↔ RejectedFor n i c := by
  cases i with
  | configure => simp [frames, framesConfigure_error_iff, RejectedFor]
  | writeOne => simp [frames, framesWriteOne_error_iff, RejectedFor]
  | writeAll => simp [frames, framesWriteAll_error_iff, RejectedFor]
  | setScanLimit | setIntensity | setDecodeMode | enterShutdown | exitShutdown | enterDisplayTest | exitDisplayTest
  | writeSame => exact iff_of_false nofun (by simp [RejectedFor])
  | _ => cases hspace

/-- An idle FRAMER rejects with exactly the cause that the checks name (R22, R102). -/
theorem submit_eq_reject_iff {checked : Except Rejection (List Frame)} {s : State} {c : Rejection}
    (hb : s.busy = false) : submit checked s = .next (s.reject c) ↔ checked = .error c := by
  constructor
  · intro h
    obtain ⟨_, ⟨r, rfl, hr⟩ | ⟨fs, _, hfs⟩⟩ := submit_next h
    · have hc : c = r := by simpa using congrArg State.status hr
      rw [hc]
    · simpa [hb] using congrArg State.busy hfs
  · rintro rfl
    exact submit_error hb

/-- A pair gives no response (R40, R102). -/
theorem exec_pair_ne_reject (p : Nat) (d : Byte) (reg : DevReg) (s : State) (c : Rejection) :
    exec (pairInstr p d reg) s ≠ .next (s.reject c) := by
  intro h
  obtain ⟨_, ht⟩ := exec_pair_next h
  simpa using congrArg State.trace ht

/-- Settles O35: a request is its frames submitted, so it is rejected as its check says, and a pair never is. -/
theorem rejectionCausesExact : Obligations.RejectionCausesExact := by
  intro i s c hb
  change exec i s = .next (s.reject c) ↔ RejectedFor s.len i c
  cases hspace : i.space with
  | host => rw [exec_host hspace, submit_eq_reject_iff hb, frames_error_iff hspace]
  | device p =>
    obtain ⟨d, reg, rfl⟩ := eq_pairInstr_of_space hspace
    exact iff_of_false (exec_pair_ne_reject p d reg s c) fun h => by simpa using h.space

/-- Settles O36: the accept step submits the cause, and an idle FRAMER answers it. -/
theorem rejectedRequestOnlyResponds : Obligations.RejectedRequestOnlyResponds := by
  intro s req rest c hhost hb hcheck
  rw [step_request hb hhost, hcheck]
  exact submit_error (s := { s with host := rest }) hb

/-! Rejection at the transaction level -/

/-- A request that is not legal is rejected with IllegalRequest before any other check (R73, R101). -/
theorem transaction_of_not_legal (n : Nat) {op : Byte} {operands : List Byte} (h : ¬ RequestLegal op operands) :
    transaction n (op :: operands) = (.rejected .illegalRequest, []) := by
  refine transaction_of_error ?_
  rw [decodeAndCheck]
  cases hdecode : decode .host (op :: operands) with
  | ok i => exact absurd ((decode_request_iff_legal op operands).mp ⟨i, hdecode⟩) h
  | error e => rfl

/-- Settles O37: a reserved register makes the request illegal, whatever its index and its count are. -/
theorem illegalRequestComesFirst : Obligations.IllegalRequestComesFirst := by
  refine ⟨fun n idx r d hr => transaction_of_not_legal n ?_, fun n cnt pairs j r _ hj hr => transaction_of_not_legal n ?_⟩
  · rintro ⟨_, hone, _⟩
    simpa [hr] using hone rfl r rfl
  · rintro ⟨_, _, _, hall⟩
    simpa [hr] using hall rfl j r (by rwa [Nat.add_comm, List.getElem?_cons_succ])

/-- Frames without a bus event are no frames: each begins with a strobe-low event (R64). -/
theorem flatMap_frameEvents_eq_nil_iff {fs : List Frame} : fs.flatMap frameEvents = [] ↔ fs = [] := by
  cases fs with
  | nil => simp
  | cons f fs => simp [frameEvents]

/-- Settles O39: a rejected request sends nothing, and an accepted one has a frame to send. -/
theorem noBusEventIffRejected : Obligations.NoBusEventIffRejected := by
  intro n req
  cases h : decodeAndCheck n req with
  | error c => simp [transaction_of_error h]
  | ok fs =>
    have hsends : fs.flatMap frameEvents ≠ [] := mt flatMap_frameEvents_eq_nil_iff.mp (decodeAndCheck_ne_nil h)
    simpa [transaction_of_ok h] using hsends

end Sys2Proof.Machine
end

section
/-! SUPPORT. Construction (R113 to R115): which lengths it accepts, and which registers of the chain it
leaves. -/

namespace Sys2Proof.Machine

/-- The HOST's reset move is a construction (R113). -/
theorem step_reset {s : State} {n : Nat} {rest : List HostMove} (hhost : s.host = .reset n :: rest) :
    step s = construct n { s with host := rest } := by
  rw [step, hhost]

/-- A construction with a length in 1..8 goes through from every state (R114); `construct_next` gives its next state. -/
theorem exists_construct_next {n : Nat} (hn : 1 ≤ n ∧ n ≤ 8) (s : State) : ∃ t, construct n s = .next t :=
  ⟨_, if_pos hn⟩

/-- A construction with a length outside 1..8 is refused (R114). -/
theorem construct_refused {n : Nat} (hn : ¬ (1 ≤ n ∧ n ≤ 8)) (s : State) :
    construct n s = .refused (.invalidConfiguration n) :=
  if_neg hn

/-- Settles O6: the step is a construction, which goes through exactly for the lengths 1 to 8. -/
theorem constructionAcceptsOneToEight : Obligations.ConstructionAcceptsOneToEight := by
  intro n s rest hhost
  rw [step_reset hhost]
  refine ⟨fun hn => ?_, fun hn => construct_refused hn _⟩
  obtain ⟨t, h⟩ := exists_construct_next hn { s with host := rest }
  obtain ⟨_, rfl⟩ := construct_next h
  exact ⟨_, h, rfl, rfl⟩

/-- Settles O7: idle, the invariant has the strobe high, so that the devices keep their registers. -/
theorem constructionSendsNothing : Obligations.ConstructionSendsNothing := by
  intro s t ⟨_, _, _, hidle, _⟩ hb h
  obtain ⟨hstb, _⟩ := hidle hb
  obtain ⟨_, rfl⟩ := construct_next h
  exact ⟨rfl, rfl, rfl, fun a => by simp [hb, hstb]⟩

/-- Settles O8: a busy FRAMER is not idle, so that the devices have no register value left. -/
theorem resetInMidRequestForgetsChain : Obligations.ResetInMidRequestForgetsChain := by
  intro n s rest hhost hb h1 h8
  obtain ⟨t, h⟩ := exists_construct_next ⟨h1, h8⟩ { s with host := rest }
  refine ⟨t, (step_reset hhost).trans h, fun a => ?_⟩
  obtain ⟨_, rfl⟩ := construct_next h
  simp [hb]

/-- Settles O53: the next state of a construction, with the branch of the register space that another length takes. -/
theorem constructionWithOtherLengthForgetsChain : Obligations.ConstructionWithOtherLengthForgetsChain := by
  intro n s rest _ _ hhost hne h1 h8
  obtain ⟨t, h⟩ := exists_construct_next ⟨h1, h8⟩ { s with host := rest }
  obtain ⟨_, rfl⟩ := construct_next h
  rw [step_reset hhost, h]
  simp [hne]

end Sys2Proof.Machine
end

section
/-! SUPPORT. Termination (R131): every step of a FRAMER whose transfers complete sends one more event of its plan, and the plan
has finitely many. -/

namespace Sys2Proof.Machine

/-- The premises of R131: a request in flight, transfers that complete, and a HOST that waits. -/
abbrev State.Sending (s : State) : Prop :=
  s.Inv ∧ s.busy = true ∧ s.xferStalled = false ∧ s.hostWaits = true

/-- The request is over: the FRAMER is idle and has answered OK (R22). -/
abbrev State.AnsweredOk (s : State) : Prop :=
  s.busy = false ∧ s.status = .ok ∧ s.trace.getLast? = some (.resp .ok)

/-- The bus events of the whole plan, `2*N + 2` for each frame (R131). -/
def State.planEvents (s : State) : Nat := s.plan.length * (2 * s.len + 2)

/-- The bus events of the plan sent so far, by the sequencer: `Q` whole frames and `K` events of the next (R18). -/
def State.eventsSent (s : State) : Nat := s.q * (2 * s.len + 2) + s.k

/-- In flight an event of the plan is still to be sent (R23 b). -/
theorem State.InFlight.eventsSent_lt {s : State} (h : s.InFlight) : s.eventsSent < s.planEvents := by
  obtain ⟨_, hq, _, hk, _⟩ := h
  calc s.eventsSent < s.q * (2 * s.len + 2) + (2 * s.len + 2) := by rw [State.eventsSent]; omega
    _ = (s.q + 1) * (2 * s.len + 2) := (Nat.succ_mul _ _).symm
    _ ≤ s.planEvents := Nat.mul_le_mul_right _ hq

/-- A plan of 1 or 5 frames for at most 8 devices has at most 90 events (R131). -/
theorem State.InFlight.planEvents_le {s : State} (h : s.InFlight) (h8 : s.len ≤ 8) : s.planEvents ≤ 90 := by
  obtain ⟨hn, _⟩ := h
  unfold State.planEvents
  rcases hn with hn | hn <;> rw [hn] <;> omega

/-- The strobe-high event completes the count of a frame (R22, R131). -/
theorem State.eventsSent_succ_of_end {s : State} (hk : s.k = 2 * s.len + 1) :
    s.eventsSent + 1 = (s.q + 1) * (2 * s.len + 2) := by
  rw [State.eventsSent, hk, Nat.succ_mul s.q]
  rfl

/-- One event: the FRAMER goes on sending with one event more of the same plan sent, or it was the plan's last event and the
request is answered (R22). -/
theorem step_sending {s : State} (hs : s.Sending) :
    ∃ t, step s = .next t ∧ t.host = s.host ∧
      (t.Sending ∧ t.planEvents = s.planEvents ∧ t.eventsSent = s.eventsSent + 1 ∨
        t.AnsweredOk ∧ s.planEvents = s.eventsSent + 1) := by
  obtain ⟨hinv, hb, hx, hwait⟩ := hs
  obtain ⟨hflight, h8⟩ := hinv.inFlight hb
  have hstep := step_waiting hb hwait
  have hkeeps {t : State} (ht : step s = .next t) : t.Inv := stepKeepsInvariant s t hinv ht
  rcases send_cases hflight h8 with
    ⟨h0, hsend⟩ | ⟨_, _, hstalled, _⟩ | ⟨_, _, _, b, _, hsend⟩ | ⟨hend, hsend⟩
  · have ht := hstep.trans hsend
    exact ⟨_, ht, rfl, .inl ⟨⟨hkeeps ht, hb, hx, hwait⟩, rfl, by simp [State.eventsSent, sendStrobeLow, h0]⟩⟩
  · simp [hx] at hstalled
  · have ht := hstep.trans hsend
    exact ⟨_, ht, rfl, .inl ⟨⟨hkeeps ht, hb, hx, hwait⟩, rfl, rfl⟩⟩
  · have hsent := State.eventsSent_succ_of_end hend
    have ht := hstep.trans hsend
    cases hnext : s.plan[s.q + 1]? with
    | some f =>
      rw [advance_next (s := s.committed) hb hnext] at ht
      exact ⟨_, ht, rfl, .inl ⟨⟨hkeeps ht, rfl, hx, hwait⟩, rfl, hsent.symm⟩⟩
    | none =>
      rw [advance_last (s := s.committed) hnext] at ht
      obtain ⟨_, hq, _⟩ := hflight
      have hlast : s.plan.length = s.q + 1 := Nat.le_antisymm (List.getElem?_eq_none_iff.mp hnext) hq
      exact ⟨_, ht, rfl, .inr ⟨⟨rfl, rfl, by simp⟩, by rw [hsent, State.planEvents, hlast]⟩⟩

/-- As many steps as the plan has events left bring the answer (R131). -/
theorem run_sending (n : Nat) {s : State} (hs : s.Sending) (hn : s.planEvents = s.eventsSent + n) :
    ∃ t, run n s = .next t ∧ t.AnsweredOk ∧ t.host = s.host := by
  induction n generalizing s with
  | zero =>
    obtain ⟨hinv, hb, _⟩ := hs
    obtain ⟨hflight, _⟩ := hinv.inFlight hb
    have hlt := hflight.eventsSent_lt
    omega
  | succ n ih =>
    obtain ⟨u, hstep, hhost, ⟨hu, hplan, hsent⟩ | ⟨hok, hlast⟩⟩ := step_sending hs
    · obtain ⟨t, hrun, hok, ht⟩ := ih hu (by omega)
      exact ⟨t, (run_succ n hstep).trans hrun, hok, ht.trans hhost⟩
    · obtain rfl : n = 0 := by omega
      exact ⟨u, run_one hstep, hok, hhost⟩

/-- Settles O43: the run of the events the plan has left. -/
theorem inFlightRequestTerminates : Obligations.InFlightRequestTerminates := by
  intro s hs hb hx hwait
  obtain ⟨hflight, h8⟩ := hs.inFlight hb
  have hlt := hflight.eventsSent_lt
  obtain ⟨t, hrun, ⟨hidle, hstatus, hresp⟩, hhost⟩ :=
    run_sending (s.planEvents - s.eventsSent) ⟨hs, hb, hx, hwait⟩ (by omega)
  have hle : s.planEvents - s.eventsSent ≤ s.planEvents := Nat.sub_le _ _
  exact ⟨_, t, hle, hle.trans (hflight.planEvents_le h8), hrun, hidle, hstatus, hresp, hhost⟩

end Sys2Proof.Machine
end
